-- ==== Sys2Proof/Word.lean ====
section
/-! DEFINITION. The two word sizes of the machine: 8-bit registers and memory bytes, 16-bit pairs and
addresses (00_scope R8). -/

namespace Sys2Proof

/-- An 8-bit register or memory byte (R8). -/
abbrev Byte := BitVec 8

/-- A 16-bit register pair, `pc`, `sp` or address (R8). -/
abbrev Word := BitVec 16

end Sys2Proof
end

