-- ==== Sys2Proof/Machine/Bits.lean ====
section
/-! DEFINITION. Byte order, sign extension and bit helpers (00_scope R10 and R13, 20_memory R71). -/

namespace Sys2Proof.Machine

/-- `v[15:8]` (R10). -/
def hiByte (v : Word) : Byte := v.extractLsb' 8 8

/-- `v[7:0]` (R10). -/
def loByte (v : Word) : Byte := v.extractLsb' 0 8

/-- `hi : lo` (R10). -/
def joinBytes (hi lo : Byte) : Word := hi ++ lo

/-- `sext_16(v8)` (R13). -/
def sext16 (v : Byte) : Word := v.signExtend 16

/-- `zext_16(v8)` (R13). -/
def zext16 (v : Byte) : Word := v.zeroExtend 16

/-- The address `0xFF00 + zext_16(v)` of the a8 and (C) operands (R87). -/
def highPage (v : Byte) : Word := 0xFF00#16 + zext16 v

end Sys2Proof.Machine
end

