-- ==== Sys2Proof/WellFormed.lean ====
section
/-! DEFINITION. Which instruction terms stand for words of the instruction stream. -/

namespace Sys2Proof

/-- Every row is an instruction of its own except PREFIX_CB: the byte 0xCB is an escape, and the two
bytes it begins are an instruction of the prefixed table (R90). So the term `prefixCB op` is not what
any bytes decode to, and the check refuses it. The operands of all other rows have exactly the width
the encoding gives them, so no other check is needed. -/
def Instr.wellFormed (i : Instr) : Bool :=
  match i with
  | .prefixCB _ => false
  | _ => true

end Sys2Proof
end

