-- ==== Sys2Proof/Decode.lean ====
section
/-! DEFINITION. The decoder, total on any bytes, written from the field tables of 30_encoding (R81 to
R92); after it the encoder, written from the rows of spec/opcode_table.json; and the host's reading of
a table word.

A family function such as `Instr.ldRR` names the row that given operand fields select, as the opcode
maps R89 and R90 do. -/

namespace Sys2Proof

open Sys2Proof.Machine

/-- `LD r8,r8` (R102): 49 rows. -/
def Instr.ldRR (dst src : Reg8) : Instr :=
  match dst, src with
  | .b, .b => .ld_B_B
  | .b, .c => .ld_B_C
  | .b, .d => .ld_B_D
  | .b, .e => .ld_B_E
  | .b, .h => .ld_B_H
  | .b, .l => .ld_B_L
  | .b, .a => .ld_B_A
  | .c, .b => .ld_C_B
  | .c, .c => .ld_C_C
  | .c, .d => .ld_C_D
  | .c, .e => .ld_C_E
  | .c, .h => .ld_C_H
  | .c, .l => .ld_C_L
  | .c, .a => .ld_C_A
  | .d, .b => .ld_D_B
  | .d, .c => .ld_D_C
  | .d, .d => .ld_D_D
  | .d, .e => .ld_D_E
  | .d, .h => .ld_D_H
  | .d, .l => .ld_D_L
  | .d, .a => .ld_D_A
  | .e, .b => .ld_E_B
  | .e, .c => .ld_E_C
  | .e, .d => .ld_E_D
  | .e, .e => .ld_E_E
  | .e, .h => .ld_E_H
  | .e, .l => .ld_E_L
  | .e, .a => .ld_E_A
  | .h, .b => .ld_H_B
  | .h, .c => .ld_H_C
  | .h, .d => .ld_H_D
  | .h, .e => .ld_H_E
  | .h, .h => .ld_H_H
  | .h, .l => .ld_H_L
  | .h, .a => .ld_H_A
  | .l, .b => .ld_L_B
  | .l, .c => .ld_L_C
  | .l, .d => .ld_L_D
  | .l, .e => .ld_L_E
  | .l, .h => .ld_L_H
  | .l, .l => .ld_L_L
  | .l, .a => .ld_L_A
  | .a, .b => .ld_A_B
  | .a, .c => .ld_A_C
  | .a, .d => .ld_A_D
  | .a, .e => .ld_A_E
  | .a, .h => .ld_A_H
  | .a, .l => .ld_A_L
  | .a, .a => .ld_A_A

/-- `LD r8,n8` (R103): 7 rows. -/
def Instr.ldRN (dst : Reg8) (n : Byte) : Instr :=
  match dst with
  | .b => .ld_B_n8 n
  | .c => .ld_C_n8 n
  | .d => .ld_D_n8 n
  | .e => .ld_E_n8 n
  | .h => .ld_H_n8 n
  | .l => .ld_L_n8 n
  | .a => .ld_A_n8 n

/-- `LD r8,(HL)` (R104): 7 rows. -/
def Instr.ldRHl (dst : Reg8) : Instr :=
  match dst with
  | .b => .ld_B_atHL
  | .c => .ld_C_atHL
  | .d => .ld_D_atHL
  | .e => .ld_E_atHL
  | .h => .ld_H_atHL
  | .l => .ld_L_atHL
  | .a => .ld_A_atHL

/-- `LD (HL),r8` (R105): 7 rows. -/
def Instr.ldHlR (src : Reg8) : Instr :=
  match src with
  | .b => .ld_atHL_B
  | .c => .ld_atHL_C
  | .d => .ld_atHL_D
  | .e => .ld_atHL_E
  | .h => .ld_atHL_H
  | .l => .ld_atHL_L
  | .a => .ld_atHL_A

/-- `LD r16,n16` (R119): 4 rows. -/
def Instr.ldR16N (rr : Reg16) (nn : Word) : Instr :=
  match rr with
  | .bc => .ld_BC_n16 nn
  | .de => .ld_DE_n16 nn
  | .hl => .ld_HL_n16 nn
  | .sp => .ld_SP_n16 nn

/-- `PUSH r16stk` (R122): 4 rows. -/
def Instr.push (rr : StkReg) : Instr :=
  match rr with
  | .bc => .push_BC
  | .de => .push_DE
  | .hl => .push_HL
  | .af => .push_AF

/-- `POP r16stk` (R123, R124): 4 rows. -/
def Instr.pop (rr : StkReg) : Instr :=
  match rr with
  | .bc => .pop_BC
  | .de => .pop_DE
  | .hl => .pop_HL
  | .af => .pop_AF

/-- `INC r16` (R160): 4 rows. -/
def Instr.incR16 (rr : Reg16) : Instr :=
  match rr with
  | .bc => .inc_BC
  | .de => .inc_DE
  | .hl => .inc_HL
  | .sp => .inc_SP

/-- `DEC r16` (R161): 4 rows. -/
def Instr.decR16 (rr : Reg16) : Instr :=
  match rr with
  | .bc => .dec_BC
  | .de => .dec_DE
  | .hl => .dec_HL
  | .sp => .dec_SP

/-- `ADD HL,r16` (R162): 4 rows. -/
def Instr.addHlR16 (rr : Reg16) : Instr :=
  match rr with
  | .bc => .add_HL_BC
  | .de => .add_HL_DE
  | .hl => .add_HL_HL
  | .sp => .add_HL_SP

/-- `INC r8` (R143): 8 rows. -/
def Instr.incR8 (r : Operand8) : Instr :=
  match r with
  | .reg .b => .inc_B
  | .reg .c => .inc_C
  | .reg .d => .inc_D
  | .reg .e => .inc_E
  | .reg .h => .inc_H
  | .reg .l => .inc_L
  | .atHL => .inc_atHL
  | .reg .a => .inc_A

/-- `DEC r8` (R144): 8 rows. -/
def Instr.decR8 (r : Operand8) : Instr :=
  match r with
  | .reg .b => .dec_B
  | .reg .c => .dec_C
  | .reg .d => .dec_D
  | .reg .e => .dec_E
  | .reg .h => .dec_H
  | .reg .l => .dec_L
  | .atHL => .dec_atHL
  | .reg .a => .dec_A

/-- `alu A,r8` (R130, R135 to R142): 64 rows. -/
def Instr.aluR (op : Alu) (r : Operand8) : Instr :=
  match op, r with
  | .add, .reg .b => .add_A_B
  | .add, .reg .c => .add_A_C
  | .add, .reg .d => .add_A_D
  | .add, .reg .e => .add_A_E
  | .add, .reg .h => .add_A_H
  | .add, .reg .l => .add_A_L
  | .add, .atHL => .add_A_atHL
  | .add, .reg .a => .add_A_A
  | .adc, .reg .b => .adc_A_B
  | .adc, .reg .c => .adc_A_C
  | .adc, .reg .d => .adc_A_D
  | .adc, .reg .e => .adc_A_E
  | .adc, .reg .h => .adc_A_H
  | .adc, .reg .l => .adc_A_L
  | .adc, .atHL => .adc_A_atHL
  | .adc, .reg .a => .adc_A_A
  | .sub, .reg .b => .sub_A_B
  | .sub, .reg .c => .sub_A_C
  | .sub, .reg .d => .sub_A_D
  | .sub, .reg .e => .sub_A_E
  | .sub, .reg .h => .sub_A_H
  | .sub, .reg .l => .sub_A_L
  | .sub, .atHL => .sub_A_atHL
  | .sub, .reg .a => .sub_A_A
  | .sbc, .reg .b => .sbc_A_B
  | .sbc, .reg .c => .sbc_A_C
  | .sbc, .reg .d => .sbc_A_D
  | .sbc, .reg .e => .sbc_A_E
  | .sbc, .reg .h => .sbc_A_H
  | .sbc, .reg .l => .sbc_A_L
  | .sbc, .atHL => .sbc_A_atHL
  | .sbc, .reg .a => .sbc_A_A
  | .and, .reg .b => .and_A_B
  | .and, .reg .c => .and_A_C
  | .and, .reg .d => .and_A_D
  | .and, .reg .e => .and_A_E
  | .and, .reg .h => .and_A_H
  | .and, .reg .l => .and_A_L
  | .and, .atHL => .and_A_atHL
  | .and, .reg .a => .and_A_A
  | .xor, .reg .b => .xor_A_B
  | .xor, .reg .c => .xor_A_C
  | .xor, .reg .d => .xor_A_D
  | .xor, .reg .e => .xor_A_E
  | .xor, .reg .h => .xor_A_H
  | .xor, .reg .l => .xor_A_L
  | .xor, .atHL => .xor_A_atHL
  | .xor, .reg .a => .xor_A_A
  | .or, .reg .b => .or_A_B
  | .or, .reg .c => .or_A_C
  | .or, .reg .d => .or_A_D
  | .or, .reg .e => .or_A_E
  | .or, .reg .h => .or_A_H
  | .or, .reg .l => .or_A_L
  | .or, .atHL => .or_A_atHL
  | .or, .reg .a => .or_A_A
  | .cp, .reg .b => .cp_A_B
  | .cp, .reg .c => .cp_A_C
  | .cp, .reg .d => .cp_A_D
  | .cp, .reg .e => .cp_A_E
  | .cp, .reg .h => .cp_A_H
  | .cp, .reg .l => .cp_A_L
  | .cp, .atHL => .cp_A_atHL
  | .cp, .reg .a => .cp_A_A

/-- `alu A,n8` (R130, R135 to R142): 8 rows. -/
def Instr.aluN (op : Alu) (n : Byte) : Instr :=
  match op with
  | .add => .add_A_n8 n
  | .adc => .adc_A_n8 n
  | .sub => .sub_A_n8 n
  | .sbc => .sbc_A_n8 n
  | .and => .and_A_n8 n
  | .xor => .xor_A_n8 n
  | .or => .or_A_n8 n
  | .cp => .cp_A_n8 n

/-- `JP cc,a16` (R192): 4 rows. -/
def Instr.jpCc (cc : Cond) (nn : Word) : Instr :=
  match cc with
  | .nz => .jp_NZ_a16 nn
  | .z => .jp_Z_a16 nn
  | .nc => .jp_NC_a16 nn
  | .c => .jp_C_a16 nn

/-- `JR cc,e8` (R195): 4 rows. -/
def Instr.jrCc (cc : Cond) (e : Byte) : Instr :=
  match cc with
  | .nz => .jr_NZ_e8 e
  | .z => .jr_Z_e8 e
  | .nc => .jr_NC_e8 e
  | .c => .jr_C_e8 e

/-- `CALL cc,a16` (R197): 4 rows. -/
def Instr.callCc (cc : Cond) (nn : Word) : Instr :=
  match cc with
  | .nz => .call_NZ_a16 nn
  | .z => .call_Z_a16 nn
  | .nc => .call_NC_a16 nn
  | .c => .call_C_a16 nn

/-- `RET cc` (R199): 4 rows. -/
def Instr.retCc (cc : Cond) : Instr :=
  match cc with
  | .nz => .ret_NZ
  | .z => .ret_Z
  | .nc => .ret_NC
  | .c => .ret_C

/-- `RST y*8` (R88, R201): 8 rows. -/
def Instr.rst (y : Fin 8) : Instr :=
  match y with
  | 0 => .rst_00
  | 1 => .rst_08
  | 2 => .rst_10
  | 3 => .rst_18
  | 4 => .rst_20
  | 5 => .rst_28
  | 6 => .rst_30
  | 7 => .rst_38

/-- The prefixed rotates and shifts (R174 to R181): 64 rows. -/
def Instr.rotR (op : Rot) (r : Operand8) : Instr :=
  match op, r with
  | .rlc, .reg .b => .rlc_B
  | .rlc, .reg .c => .rlc_C
  | .rlc, .reg .d => .rlc_D
  | .rlc, .reg .e => .rlc_E
  | .rlc, .reg .h => .rlc_H
  | .rlc, .reg .l => .rlc_L
  | .rlc, .atHL => .rlc_atHL
  | .rlc, .reg .a => .rlc_A
  | .rrc, .reg .b => .rrc_B
  | .rrc, .reg .c => .rrc_C
  | .rrc, .reg .d => .rrc_D
  | .rrc, .reg .e => .rrc_E
  | .rrc, .reg .h => .rrc_H
  | .rrc, .reg .l => .rrc_L
  | .rrc, .atHL => .rrc_atHL
  | .rrc, .reg .a => .rrc_A
  | .rl, .reg .b => .rl_B
  | .rl, .reg .c => .rl_C
  | .rl, .reg .d => .rl_D
  | .rl, .reg .e => .rl_E
  | .rl, .reg .h => .rl_H
  | .rl, .reg .l => .rl_L
  | .rl, .atHL => .rl_atHL
  | .rl, .reg .a => .rl_A
  | .rr, .reg .b => .rr_B
  | .rr, .reg .c => .rr_C
  | .rr, .reg .d => .rr_D
  | .rr, .reg .e => .rr_E
  | .rr, .reg .h => .rr_H
  | .rr, .reg .l => .rr_L
  | .rr, .atHL => .rr_atHL
  | .rr, .reg .a => .rr_A
  | .sla, .reg .b => .sla_B
  | .sla, .reg .c => .sla_C
  | .sla, .reg .d => .sla_D
  | .sla, .reg .e => .sla_E
  | .sla, .reg .h => .sla_H
  | .sla, .reg .l => .sla_L
  | .sla, .atHL => .sla_atHL
  | .sla, .reg .a => .sla_A
  | .sra, .reg .b => .sra_B
  | .sra, .reg .c => .sra_C
  | .sra, .reg .d => .sra_D
  | .sra, .reg .e => .sra_E
  | .sra, .reg .h => .sra_H
  | .sra, .reg .l => .sra_L
  | .sra, .atHL => .sra_atHL
  | .sra, .reg .a => .sra_A
  | .swap, .reg .b => .swap_B
  | .swap, .reg .c => .swap_C
  | .swap, .reg .d => .swap_D
  | .swap, .reg .e => .swap_E
  | .swap, .reg .h => .swap_H
  | .swap, .reg .l => .swap_L
  | .swap, .atHL => .swap_atHL
  | .swap, .reg .a => .swap_A
  | .srl, .reg .b => .srl_B
  | .srl, .reg .c => .srl_C
  | .srl, .reg .d => .srl_D
  | .srl, .reg .e => .srl_E
  | .srl, .reg .h => .srl_H
  | .srl, .reg .l => .srl_L
  | .srl, .atHL => .srl_atHL
  | .srl, .reg .a => .srl_A

/-- `BIT b,r8` (R182): 64 rows. -/
def Instr.bitR (b : Fin 8) (r : Operand8) : Instr :=
  match b, r with
  | 0, .reg .b => .bit_0_B
  | 0, .reg .c => .bit_0_C
  | 0, .reg .d => .bit_0_D
  | 0, .reg .e => .bit_0_E
  | 0, .reg .h => .bit_0_H
  | 0, .reg .l => .bit_0_L
  | 0, .atHL => .bit_0_atHL
  | 0, .reg .a => .bit_0_A
  | 1, .reg .b => .bit_1_B
  | 1, .reg .c => .bit_1_C
  | 1, .reg .d => .bit_1_D
  | 1, .reg .e => .bit_1_E
  | 1, .reg .h => .bit_1_H
  | 1, .reg .l => .bit_1_L
  | 1, .atHL => .bit_1_atHL
  | 1, .reg .a => .bit_1_A
  | 2, .reg .b => .bit_2_B
  | 2, .reg .c => .bit_2_C
  | 2, .reg .d => .bit_2_D
  | 2, .reg .e => .bit_2_E
  | 2, .reg .h => .bit_2_H
  | 2, .reg .l => .bit_2_L
  | 2, .atHL => .bit_2_atHL
  | 2, .reg .a => .bit_2_A
  | 3, .reg .b => .bit_3_B
  | 3, .reg .c => .bit_3_C
  | 3, .reg .d => .bit_3_D
  | 3, .reg .e => .bit_3_E
  | 3, .reg .h => .bit_3_H
  | 3, .reg .l => .bit_3_L
  | 3, .atHL => .bit_3_atHL
  | 3, .reg .a => .bit_3_A
  | 4, .reg .b => .bit_4_B
  | 4, .reg .c => .bit_4_C
  | 4, .reg .d => .bit_4_D
  | 4, .reg .e => .bit_4_E
  | 4, .reg .h => .bit_4_H
  | 4, .reg .l => .bit_4_L
  | 4, .atHL => .bit_4_atHL
  | 4, .reg .a => .bit_4_A
  | 5, .reg .b => .bit_5_B
  | 5, .reg .c => .bit_5_C
  | 5, .reg .d => .bit_5_D
  | 5, .reg .e => .bit_5_E
  | 5, .reg .h => .bit_5_H
  | 5, .reg .l => .bit_5_L
  | 5, .atHL => .bit_5_atHL
  | 5, .reg .a => .bit_5_A
  | 6, .reg .b => .bit_6_B
  | 6, .reg .c => .bit_6_C
  | 6, .reg .d => .bit_6_D
  | 6, .reg .e => .bit_6_E
  | 6, .reg .h => .bit_6_H
  | 6, .reg .l => .bit_6_L
  | 6, .atHL => .bit_6_atHL
  | 6, .reg .a => .bit_6_A
  | 7, .reg .b => .bit_7_B
  | 7, .reg .c => .bit_7_C
  | 7, .reg .d => .bit_7_D
  | 7, .reg .e => .bit_7_E
  | 7, .reg .h => .bit_7_H
  | 7, .reg .l => .bit_7_L
  | 7, .atHL => .bit_7_atHL
  | 7, .reg .a => .bit_7_A

/-- `RES b,r8` (R183): 64 rows. -/
def Instr.resR (b : Fin 8) (r : Operand8) : Instr :=
  match b, r with
  | 0, .reg .b => .res_0_B
  | 0, .reg .c => .res_0_C
  | 0, .reg .d => .res_0_D
  | 0, .reg .e => .res_0_E
  | 0, .reg .h => .res_0_H
  | 0, .reg .l => .res_0_L
  | 0, .atHL => .res_0_atHL
  | 0, .reg .a => .res_0_A
  | 1, .reg .b => .res_1_B
  | 1, .reg .c => .res_1_C
  | 1, .reg .d => .res_1_D
  | 1, .reg .e => .res_1_E
  | 1, .reg .h => .res_1_H
  | 1, .reg .l => .res_1_L
  | 1, .atHL => .res_1_atHL
  | 1, .reg .a => .res_1_A
  | 2, .reg .b => .res_2_B
  | 2, .reg .c => .res_2_C
  | 2, .reg .d => .res_2_D
  | 2, .reg .e => .res_2_E
  | 2, .reg .h => .res_2_H
  | 2, .reg .l => .res_2_L
  | 2, .atHL => .res_2_atHL
  | 2, .reg .a => .res_2_A
  | 3, .reg .b => .res_3_B
  | 3, .reg .c => .res_3_C
  | 3, .reg .d => .res_3_D
  | 3, .reg .e => .res_3_E
  | 3, .reg .h => .res_3_H
  | 3, .reg .l => .res_3_L
  | 3, .atHL => .res_3_atHL
  | 3, .reg .a => .res_3_A
  | 4, .reg .b => .res_4_B
  | 4, .reg .c => .res_4_C
  | 4, .reg .d => .res_4_D
  | 4, .reg .e => .res_4_E
  | 4, .reg .h => .res_4_H
  | 4, .reg .l => .res_4_L
  | 4, .atHL => .res_4_atHL
  | 4, .reg .a => .res_4_A
  | 5, .reg .b => .res_5_B
  | 5, .reg .c => .res_5_C
  | 5, .reg .d => .res_5_D
  | 5, .reg .e => .res_5_E
  | 5, .reg .h => .res_5_H
  | 5, .reg .l => .res_5_L
  | 5, .atHL => .res_5_atHL
  | 5, .reg .a => .res_5_A
  | 6, .reg .b => .res_6_B
  | 6, .reg .c => .res_6_C
  | 6, .reg .d => .res_6_D
  | 6, .reg .e => .res_6_E
  | 6, .reg .h => .res_6_H
  | 6, .reg .l => .res_6_L
  | 6, .atHL => .res_6_atHL
  | 6, .reg .a => .res_6_A
  | 7, .reg .b => .res_7_B
  | 7, .reg .c => .res_7_C
  | 7, .reg .d => .res_7_D
  | 7, .reg .e => .res_7_E
  | 7, .reg .h => .res_7_H
  | 7, .reg .l => .res_7_L
  | 7, .atHL => .res_7_atHL
  | 7, .reg .a => .res_7_A

/-- `SET b,r8` (R184): 64 rows. -/
def Instr.setR (b : Fin 8) (r : Operand8) : Instr :=
  match b, r with
  | 0, .reg .b => .set_0_B
  | 0, .reg .c => .set_0_C
  | 0, .reg .d => .set_0_D
  | 0, .reg .e => .set_0_E
  | 0, .reg .h => .set_0_H
  | 0, .reg .l => .set_0_L
  | 0, .atHL => .set_0_atHL
  | 0, .reg .a => .set_0_A
  | 1, .reg .b => .set_1_B
  | 1, .reg .c => .set_1_C
  | 1, .reg .d => .set_1_D
  | 1, .reg .e => .set_1_E
  | 1, .reg .h => .set_1_H
  | 1, .reg .l => .set_1_L
  | 1, .atHL => .set_1_atHL
  | 1, .reg .a => .set_1_A
  | 2, .reg .b => .set_2_B
  | 2, .reg .c => .set_2_C
  | 2, .reg .d => .set_2_D
  | 2, .reg .e => .set_2_E
  | 2, .reg .h => .set_2_H
  | 2, .reg .l => .set_2_L
  | 2, .atHL => .set_2_atHL
  | 2, .reg .a => .set_2_A
  | 3, .reg .b => .set_3_B
  | 3, .reg .c => .set_3_C
  | 3, .reg .d => .set_3_D
  | 3, .reg .e => .set_3_E
  | 3, .reg .h => .set_3_H
  | 3, .reg .l => .set_3_L
  | 3, .atHL => .set_3_atHL
  | 3, .reg .a => .set_3_A
  | 4, .reg .b => .set_4_B
  | 4, .reg .c => .set_4_C
  | 4, .reg .d => .set_4_D
  | 4, .reg .e => .set_4_E
  | 4, .reg .h => .set_4_H
  | 4, .reg .l => .set_4_L
  | 4, .atHL => .set_4_atHL
  | 4, .reg .a => .set_4_A
  | 5, .reg .b => .set_5_B
  | 5, .reg .c => .set_5_C
  | 5, .reg .d => .set_5_D
  | 5, .reg .e => .set_5_E
  | 5, .reg .h => .set_5_H
  | 5, .reg .l => .set_5_L
  | 5, .atHL => .set_5_atHL
  | 5, .reg .a => .set_5_A
  | 6, .reg .b => .set_6_B
  | 6, .reg .c => .set_6_C
  | 6, .reg .d => .set_6_D
  | 6, .reg .e => .set_6_E
  | 6, .reg .h => .set_6_H
  | 6, .reg .l => .set_6_L
  | 6, .atHL => .set_6_atHL
  | 6, .reg .a => .set_6_A
  | 7, .reg .b => .set_7_B
  | 7, .reg .c => .set_7_C
  | 7, .reg .d => .set_7_D
  | 7, .reg .e => .set_7_E
  | 7, .reg .h => .set_7_H
  | 7, .reg .l => .set_7_L
  | 7, .atHL => .set_7_atHL
  | 7, .reg .a => .set_7_A

/-- The field `x = o[7:6]` of an opcode byte (R82). -/
def fieldX (o : Byte) : Nat := (o.extractLsb' 6 2).toNat

/-- The field `y = o[5:3]` (R82). -/
def fieldY (o : Byte) : Fin 8 := ⟨(o.extractLsb' 3 3).toNat, (o.extractLsb' 3 3).isLt⟩

/-- The field `z = o[2:0]` (R82). -/
def fieldZ (o : Byte) : Fin 8 := ⟨(o.extractLsb' 0 3).toNat, (o.extractLsb' 0 3).isLt⟩

/-- The field `p = o[5:4]` (R82). -/
def fieldP (o : Byte) : Nat := (o.extractLsb' 4 2).toNat

/-- The field `q = o[3]` (R82). -/
def fieldQ (o : Byte) : Bool := o.getLsbD 3

/-- The r8 operand of a 3-bit code (R83). -/
def operand8OfCode (k : Fin 8) : Operand8 :=
  match k with
  | 0 => .reg .b
  | 1 => .reg .c
  | 2 => .reg .d
  | 3 => .reg .e
  | 4 => .reg .h
  | 5 => .reg .l
  | 6 => .atHL
  | 7 => .reg .a

/-- The r16 operand of field `p` (R84); code 3 is SP. -/
def reg16OfCode (p : Nat) : Reg16 :=
  match p with
  | 0 => .bc
  | 1 => .de
  | 2 => .hl
  | _ => .sp

/-- The r16stk operand of field `p` (R85); code 3 is AF. -/
def stkOfCode (p : Nat) : StkReg :=
  match p with
  | 0 => .bc
  | 1 => .de
  | 2 => .hl
  | _ => .af

/-- The condition of a 2-bit code, `y[1:0]` (R86). -/
def condOfCode (y : Fin 8) : Cond :=
  match y.val % 4 with
  | 0 => .nz
  | 1 => .z
  | 2 => .nc
  | _ => .c

/-- The ALU operation `alu(y)` (R89). -/
def aluOfCode (y : Fin 8) : Alu :=
  match y with
  | 0 => .add
  | 1 => .adc
  | 2 => .sub
  | 3 => .sbc
  | 4 => .and
  | 5 => .xor
  | 6 => .or
  | 7 => .cp

/-- The operation `rot(y)` (R90). -/
def rotOfCode (y : Fin 8) : Rot :=
  match y with
  | 0 => .rlc
  | 1 => .rrc
  | 2 => .rl
  | 3 => .rr
  | 4 => .sla
  | 5 => .sra
  | 6 => .swap
  | 7 => .srl

/-- The prefixed table (R90): the instruction that byte 1 selects after 0xCB. -/
def decodePrefixed (o : Byte) : Instr :=
  match fieldX o with
  | 0 => Instr.rotR (rotOfCode (fieldY o)) (operand8OfCode (fieldZ o))
  | 1 => Instr.bitR (fieldY o) (operand8OfCode (fieldZ o))
  | 2 => Instr.resR (fieldY o) (operand8OfCode (fieldZ o))
  | _ => Instr.setR (fieldY o) (operand8OfCode (fieldZ o))

/-- The rows of R89 with `x = 0`; `n` is byte 1 and `nn` the 16-bit operand. -/
def decodeX0 (o n : Byte) (nn : Word) : Instr :=
  match fieldZ o with
  | 0 =>
    match fieldY o with
    | 0 => .nop
    | 1 => .ld_ata16_SP nn
    | 2 => .stop n
    | 3 => .jr_e8 n
    | y => Instr.jrCc (condOfCode y) n
  | 1 => if fieldQ o then Instr.addHlR16 (reg16OfCode (fieldP o)) else Instr.ldR16N (reg16OfCode (fieldP o)) nn
  | 2 =>
    match fieldQ o, fieldP o with
    | false, 0 => .ld_atBC_A
    | false, 1 => .ld_atDE_A
    | false, 2 => .ld_atHLI_A
    | false, _ => .ld_atHLD_A
    | true, 0 => .ld_A_atBC
    | true, 1 => .ld_A_atDE
    | true, 2 => .ld_A_atHLI
    | true, _ => .ld_A_atHLD
  | 3 => if fieldQ o then Instr.decR16 (reg16OfCode (fieldP o)) else Instr.incR16 (reg16OfCode (fieldP o))
  | 4 => Instr.incR8 (operand8OfCode (fieldY o))
  | 5 => Instr.decR8 (operand8OfCode (fieldY o))
  | 6 =>
    match operand8OfCode (fieldY o) with
    | .reg dst => Instr.ldRN dst n
    | .atHL => .ld_atHL_n8 n
  | 7 =>
    match fieldY o with
    | 0 => .rlca
    | 1 => .rrca
    | 2 => .rla
    | 3 => .rra
    | 4 => .daa
    | 5 => .cpl
    | 6 => .scf
    | 7 => .ccf

/-- The rows of R89 with `x = 1`; the slot `LD (HL),(HL)` is HALT. -/
def decodeX1 (o : Byte) : Instr :=
  match operand8OfCode (fieldY o), operand8OfCode (fieldZ o) with
  | .reg dst, .reg src => Instr.ldRR dst src
  | .reg dst, .atHL => Instr.ldRHl dst
  | .atHL, .reg src => Instr.ldHlR src
  | .atHL, .atHL => .halt

/-- The rows of R89 with `x = 3`, the eleven illegal bytes of R91 among them. -/
def decodeX3 (o n : Byte) (nn : Word) : Instr :=
  match fieldZ o with
  | 0 =>
    match fieldY o with
    | 4 => .ldh_ata8_A n
    | 5 => .add_SP_e8 n
    | 6 => .ldh_A_ata8 n
    | 7 => .ld_HL_SPe8 n
    | y => Instr.retCc (condOfCode y)
  | 1 =>
    match fieldQ o, fieldP o with
    | false, p => Instr.pop (stkOfCode p)
    | true, 0 => .ret
    | true, 1 => .reti
    | true, 2 => .jp_HL
    | true, _ => .ld_SP_HL
  | 2 =>
    match fieldY o with
    | 4 => .ld_atC_A
    | 5 => .ld_ata16_A nn
    | 6 => .ld_A_atC
    | 7 => .ld_A_ata16 nn
    | y => Instr.jpCc (condOfCode y) nn
  | 3 =>
    match fieldY o with
    | 0 => .jp_a16 nn
    | 1 => decodePrefixed n
    | 2 => .illegal_D3
    | 3 => .illegal_DB
    | 4 => .illegal_E3
    | 5 => .illegal_EB
    | 6 => .di
    | 7 => .ei
  | 4 =>
    match fieldY o with
    | 4 => .illegal_E4
    | 5 => .illegal_EC
    | 6 => .illegal_F4
    | 7 => .illegal_FC
    | y => Instr.callCc (condOfCode y) nn
  | 5 =>
    match fieldQ o, fieldP o with
    | false, p => Instr.push (stkOfCode p)
    | true, 0 => .call_a16 nn
    | true, 1 => .illegal_DD
    | true, 2 => .illegal_ED
    | true, _ => .illegal_FD
  | 6 => Instr.aluN (aluOfCode (fieldY o)) n
  | 7 => Instr.rst (fieldY o)

/-- The length in bytes, fixed by byte 0 alone (R81, the formats of R89). -/
def instrLength (o : Byte) : Nat :=
  match fieldX o with
  | 0 =>
    match fieldZ o with
    | 0 =>
      match fieldY o with
      | 0 => 1
      | 1 => 3
      | _ => 2
    | 1 => if fieldQ o then 1 else 3
    | 6 => 2
    | _ => 1
  | 3 =>
    match fieldZ o with
    | 0 => if (fieldY o).val < 4 then 1 else 2
    | 2 => if (fieldY o).val < 4 ∨ (fieldY o).val % 2 = 1 then 3 else 1
    | 3 =>
      match fieldY o with
      | 0 => 3
      | 1 => 2
      | _ => 1
    | 4 => if (fieldY o).val < 4 then 3 else 1
    | 5 => if fieldQ o ∧ fieldP o = 0 then 3 else 1
    | 6 => 2
    | _ => 1
  | _ => 1

/-- The instruction that bytes 0, 1 and 2 select (R80, R89, R93). A byte past the instruction's length
is not looked at. -/
def decodeBytes (b0 b1 b2 : Byte) : Instr :=
  match fieldX b0 with
  | 0 => decodeX0 b0 b1 (joinBytes b2 b1)
  | 1 => decodeX1 b0
  | 2 => Instr.aluR (aluOfCode (fieldY b0)) (operand8OfCode (fieldZ b0))
  | _ => decodeX3 b0 b1 (joinBytes b2 b1)

/-- Why a byte string is no instruction. The opcode maps leave no byte without a row (R90, R91), so the
one reason is that the string ends inside an instruction. -/
inductive DecodeReject where
  | empty
  | truncated (need : Nat) (have_ : Nat)
  deriving DecidableEq, Repr

/-- The decoder: the instruction at the head of a byte string and the bytes after it, or the reason
there is none. -/
def decode (bs : List Byte) : Except DecodeReject (Instr × List Byte) :=
  match bs with
  | [] => .error .empty
  | b0 :: r =>
    match instrLength b0, r with
    | 1, r => .ok (decodeBytes b0 0 0, r)
    | 2, b1 :: r => .ok (decodeBytes b0 b1 0, r)
    | 3, b1 :: b2 :: r => .ok (decodeBytes b0 b1 b2, r)
    | k, r => .error (.truncated k (r.length + 1))

/-- The bytes of an instruction, from its row of spec/opcode_table.json: the opcode byte (after 0xCB
for the prefixed rows) and the operand bytes in the row's order, a 16-bit operand low byte first
(R71, R81). -/
def encode (i : Instr) : List Byte :=
  match i with
  | .nop => [0x00#8]
  | .ld_BC_n16 nn => [0x01#8, loByte nn, hiByte nn]
  | .ld_atBC_A => [0x02#8]
  | .inc_BC => [0x03#8]
  | .inc_B => [0x04#8]
  | .dec_B => [0x05#8]
  | .ld_B_n8 n => [0x06#8, n]
  | .rlca => [0x07#8]
  | .ld_ata16_SP nn => [0x08#8, loByte nn, hiByte nn]
  | .add_HL_BC => [0x09#8]
  | .ld_A_atBC => [0x0A#8]
  | .dec_BC => [0x0B#8]
  | .inc_C => [0x0C#8]
  | .dec_C => [0x0D#8]
  | .ld_C_n8 n => [0x0E#8, n]
  | .rrca => [0x0F#8]
  | .stop ignored => [0x10#8, ignored]
  | .ld_DE_n16 nn => [0x11#8, loByte nn, hiByte nn]
  | .ld_atDE_A => [0x12#8]
  | .inc_DE => [0x13#8]
  | .inc_D => [0x14#8]
  | .dec_D => [0x15#8]
  | .ld_D_n8 n => [0x16#8, n]
  | .rla => [0x17#8]
  | .jr_e8 e => [0x18#8, e]
  | .add_HL_DE => [0x19#8]
  | .ld_A_atDE => [0x1A#8]
  | .dec_DE => [0x1B#8]
  | .inc_E => [0x1C#8]
  | .dec_E => [0x1D#8]
  | .ld_E_n8 n => [0x1E#8, n]
  | .rra => [0x1F#8]
  | .jr_NZ_e8 e => [0x20#8, e]
  | .ld_HL_n16 nn => [0x21#8, loByte nn, hiByte nn]
  | .ld_atHLI_A => [0x22#8]
  | .inc_HL => [0x23#8]
  | .inc_H => [0x24#8]
  | .dec_H => [0x25#8]
  | .ld_H_n8 n => [0x26#8, n]
  | .daa => [0x27#8]
  | .jr_Z_e8 e => [0x28#8, e]
  | .add_HL_HL => [0x29#8]
  | .ld_A_atHLI => [0x2A#8]
  | .dec_HL => [0x2B#8]
  | .inc_L => [0x2C#8]
  | .dec_L => [0x2D#8]
  | .ld_L_n8 n => [0x2E#8, n]
  | .cpl => [0x2F#8]
  | .jr_NC_e8 e => [0x30#8, e]
  | .ld_SP_n16 nn => [0x31#8, loByte nn, hiByte nn]
  | .ld_atHLD_A => [0x32#8]
  | .inc_SP => [0x33#8]
  | .inc_atHL => [0x34#8]
  | .dec_atHL => [0x35#8]
  | .ld_atHL_n8 n => [0x36#8, n]
  | .scf => [0x37#8]
  | .jr_C_e8 e => [0x38#8, e]
  | .add_HL_SP => [0x39#8]
  | .ld_A_atHLD => [0x3A#8]
  | .dec_SP => [0x3B#8]
  | .inc_A => [0x3C#8]
  | .dec_A => [0x3D#8]
  | .ld_A_n8 n => [0x3E#8, n]
  | .ccf => [0x3F#8]
  | .ld_B_B => [0x40#8]
  | .ld_B_C => [0x41#8]
  | .ld_B_D => [0x42#8]
  | .ld_B_E => [0x43#8]
  | .ld_B_H => [0x44#8]
  | .ld_B_L => [0x45#8]
  | .ld_B_atHL => [0x46#8]
  | .ld_B_A => [0x47#8]
  | .ld_C_B => [0x48#8]
  | .ld_C_C => [0x49#8]
  | .ld_C_D => [0x4A#8]
  | .ld_C_E => [0x4B#8]
  | .ld_C_H => [0x4C#8]
  | .ld_C_L => [0x4D#8]
  | .ld_C_atHL => [0x4E#8]
  | .ld_C_A => [0x4F#8]
  | .ld_D_B => [0x50#8]
  | .ld_D_C => [0x51#8]
  | .ld_D_D => [0x52#8]
  | .ld_D_E => [0x53#8]
  | .ld_D_H => [0x54#8]
  | .ld_D_L => [0x55#8]
  | .ld_D_atHL => [0x56#8]
  | .ld_D_A => [0x57#8]
  | .ld_E_B => [0x58#8]
  | .ld_E_C => [0x59#8]
  | .ld_E_D => [0x5A#8]
  | .ld_E_E => [0x5B#8]
  | .ld_E_H => [0x5C#8]
  | .ld_E_L => [0x5D#8]
  | .ld_E_atHL => [0x5E#8]
  | .ld_E_A => [0x5F#8]
  | .ld_H_B => [0x60#8]
  | .ld_H_C => [0x61#8]
  | .ld_H_D => [0x62#8]
  | .ld_H_E => [0x63#8]
  | .ld_H_H => [0x64#8]
  | .ld_H_L => [0x65#8]
  | .ld_H_atHL => [0x66#8]
  | .ld_H_A => [0x67#8]
  | .ld_L_B => [0x68#8]
  | .ld_L_C => [0x69#8]
  | .ld_L_D => [0x6A#8]
  | .ld_L_E => [0x6B#8]
  | .ld_L_H => [0x6C#8]
  | .ld_L_L => [0x6D#8]
  | .ld_L_atHL => [0x6E#8]
  | .ld_L_A => [0x6F#8]
  | .ld_atHL_B => [0x70#8]
  | .ld_atHL_C => [0x71#8]
  | .ld_atHL_D => [0x72#8]
  | .ld_atHL_E => [0x73#8]
  | .ld_atHL_H => [0x74#8]
  | .ld_atHL_L => [0x75#8]
  | .halt => [0x76#8]
  | .ld_atHL_A => [0x77#8]
  | .ld_A_B => [0x78#8]
  | .ld_A_C => [0x79#8]
  | .ld_A_D => [0x7A#8]
  | .ld_A_E => [0x7B#8]
  | .ld_A_H => [0x7C#8]
  | .ld_A_L => [0x7D#8]
  | .ld_A_atHL => [0x7E#8]
  | .ld_A_A => [0x7F#8]
  | .add_A_B => [0x80#8]
  | .add_A_C => [0x81#8]
  | .add_A_D => [0x82#8]
  | .add_A_E => [0x83#8]
  | .add_A_H => [0x84#8]
  | .add_A_L => [0x85#8]
  | .add_A_atHL => [0x86#8]
  | .add_A_A => [0x87#8]
  | .adc_A_B => [0x88#8]
  | .adc_A_C => [0x89#8]
  | .adc_A_D => [0x8A#8]
  | .adc_A_E => [0x8B#8]
  | .adc_A_H => [0x8C#8]
  | .adc_A_L => [0x8D#8]
  | .adc_A_atHL => [0x8E#8]
  | .adc_A_A => [0x8F#8]
  | .sub_A_B => [0x90#8]
  | .sub_A_C => [0x91#8]
  | .sub_A_D => [0x92#8]
  | .sub_A_E => [0x93#8]
  | .sub_A_H => [0x94#8]
  | .sub_A_L => [0x95#8]
  | .sub_A_atHL => [0x96#8]
  | .sub_A_A => [0x97#8]
  | .sbc_A_B => [0x98#8]
  | .sbc_A_C => [0x99#8]
  | .sbc_A_D => [0x9A#8]
  | .sbc_A_E => [0x9B#8]
  | .sbc_A_H => [0x9C#8]
  | .sbc_A_L => [0x9D#8]
  | .sbc_A_atHL => [0x9E#8]
  | .sbc_A_A => [0x9F#8]
  | .and_A_B => [0xA0#8]
  | .and_A_C => [0xA1#8]
  | .and_A_D => [0xA2#8]
  | .and_A_E => [0xA3#8]
  | .and_A_H => [0xA4#8]
  | .and_A_L => [0xA5#8]
  | .and_A_atHL => [0xA6#8]
  | .and_A_A => [0xA7#8]
  | .xor_A_B => [0xA8#8]
  | .xor_A_C => [0xA9#8]
  | .xor_A_D => [0xAA#8]
  | .xor_A_E => [0xAB#8]
  | .xor_A_H => [0xAC#8]
  | .xor_A_L => [0xAD#8]
  | .xor_A_atHL => [0xAE#8]
  | .xor_A_A => [0xAF#8]
  | .or_A_B => [0xB0#8]
  | .or_A_C => [0xB1#8]
  | .or_A_D => [0xB2#8]
  | .or_A_E => [0xB3#8]
  | .or_A_H => [0xB4#8]
  | .or_A_L => [0xB5#8]
  | .or_A_atHL => [0xB6#8]
  | .or_A_A => [0xB7#8]
  | .cp_A_B => [0xB8#8]
  | .cp_A_C => [0xB9#8]
  | .cp_A_D => [0xBA#8]
  | .cp_A_E => [0xBB#8]
  | .cp_A_H => [0xBC#8]
  | .cp_A_L => [0xBD#8]
  | .cp_A_atHL => [0xBE#8]
  | .cp_A_A => [0xBF#8]
  | .ret_NZ => [0xC0#8]
  | .pop_BC => [0xC1#8]
  | .jp_NZ_a16 nn => [0xC2#8, loByte nn, hiByte nn]
  | .jp_a16 nn => [0xC3#8, loByte nn, hiByte nn]
  | .call_NZ_a16 nn => [0xC4#8, loByte nn, hiByte nn]
  | .push_BC => [0xC5#8]
  | .add_A_n8 n => [0xC6#8, n]
  | .rst_00 => [0xC7#8]
  | .ret_Z => [0xC8#8]
  | .ret => [0xC9#8]
  | .jp_Z_a16 nn => [0xCA#8, loByte nn, hiByte nn]
  | .prefixCB op => [0xCB#8, op]
  | .call_Z_a16 nn => [0xCC#8, loByte nn, hiByte nn]
  | .call_a16 nn => [0xCD#8, loByte nn, hiByte nn]
  | .adc_A_n8 n => [0xCE#8, n]
  | .rst_08 => [0xCF#8]
  | .ret_NC => [0xD0#8]
  | .pop_DE => [0xD1#8]
  | .jp_NC_a16 nn => [0xD2#8, loByte nn, hiByte nn]
  | .illegal_D3 => [0xD3#8]
  | .call_NC_a16 nn => [0xD4#8, loByte nn, hiByte nn]
  | .push_DE => [0xD5#8]
  | .sub_A_n8 n => [0xD6#8, n]
  | .rst_10 => [0xD7#8]
  | .ret_C => [0xD8#8]
  | .reti => [0xD9#8]
  | .jp_C_a16 nn => [0xDA#8, loByte nn, hiByte nn]
  | .illegal_DB => [0xDB#8]
  | .call_C_a16 nn => [0xDC#8, loByte nn, hiByte nn]
  | .illegal_DD => [0xDD#8]
  | .sbc_A_n8 n => [0xDE#8, n]
  | .rst_18 => [0xDF#8]
  | .ldh_ata8_A n => [0xE0#8, n]
  | .pop_HL => [0xE1#8]
  | .ld_atC_A => [0xE2#8]
  | .illegal_E3 => [0xE3#8]
  | .illegal_E4 => [0xE4#8]
  | .push_HL => [0xE5#8]
  | .and_A_n8 n => [0xE6#8, n]
  | .rst_20 => [0xE7#8]
  | .add_SP_e8 e => [0xE8#8, e]
  | .jp_HL => [0xE9#8]
  | .ld_ata16_A nn => [0xEA#8, loByte nn, hiByte nn]
  | .illegal_EB => [0xEB#8]
  | .illegal_EC => [0xEC#8]
  | .illegal_ED => [0xED#8]
  | .xor_A_n8 n => [0xEE#8, n]
  | .rst_28 => [0xEF#8]
  | .ldh_A_ata8 n => [0xF0#8, n]
  | .pop_AF => [0xF1#8]
  | .ld_A_atC => [0xF2#8]
  | .di => [0xF3#8]
  | .illegal_F4 => [0xF4#8]
  | .push_AF => [0xF5#8]
  | .or_A_n8 n => [0xF6#8, n]
  | .rst_30 => [0xF7#8]
  | .ld_HL_SPe8 e => [0xF8#8, e]
  | .ld_SP_HL => [0xF9#8]
  | .ld_A_ata16 nn => [0xFA#8, loByte nn, hiByte nn]
  | .ei => [0xFB#8]
  | .illegal_FC => [0xFC#8]
  | .illegal_FD => [0xFD#8]
  | .cp_A_n8 n => [0xFE#8, n]
  | .rst_38 => [0xFF#8]
  | .rlc_B => [0xCB#8, 0x00#8]
  | .rlc_C => [0xCB#8, 0x01#8]
  | .rlc_D => [0xCB#8, 0x02#8]
  | .rlc_E => [0xCB#8, 0x03#8]
  | .rlc_H => [0xCB#8, 0x04#8]
  | .rlc_L => [0xCB#8, 0x05#8]
  | .rlc_atHL => [0xCB#8, 0x06#8]
  | .rlc_A => [0xCB#8, 0x07#8]
  | .rrc_B => [0xCB#8, 0x08#8]
  | .rrc_C => [0xCB#8, 0x09#8]
  | .rrc_D => [0xCB#8, 0x0A#8]
  | .rrc_E => [0xCB#8, 0x0B#8]
  | .rrc_H => [0xCB#8, 0x0C#8]
  | .rrc_L => [0xCB#8, 0x0D#8]
  | .rrc_atHL => [0xCB#8, 0x0E#8]
  | .rrc_A => [0xCB#8, 0x0F#8]
  | .rl_B => [0xCB#8, 0x10#8]
  | .rl_C => [0xCB#8, 0x11#8]
  | .rl_D => [0xCB#8, 0x12#8]
  | .rl_E => [0xCB#8, 0x13#8]
  | .rl_H => [0xCB#8, 0x14#8]
  | .rl_L => [0xCB#8, 0x15#8]
  | .rl_atHL => [0xCB#8, 0x16#8]
  | .rl_A => [0xCB#8, 0x17#8]
  | .rr_B => [0xCB#8, 0x18#8]
  | .rr_C => [0xCB#8, 0x19#8]
  | .rr_D => [0xCB#8, 0x1A#8]
  | .rr_E => [0xCB#8, 0x1B#8]
  | .rr_H => [0xCB#8, 0x1C#8]
  | .rr_L => [0xCB#8, 0x1D#8]
  | .rr_atHL => [0xCB#8, 0x1E#8]
  | .rr_A => [0xCB#8, 0x1F#8]
  | .sla_B => [0xCB#8, 0x20#8]
  | .sla_C => [0xCB#8, 0x21#8]
  | .sla_D => [0xCB#8, 0x22#8]
  | .sla_E => [0xCB#8, 0x23#8]
  | .sla_H => [0xCB#8, 0x24#8]
  | .sla_L => [0xCB#8, 0x25#8]
  | .sla_atHL => [0xCB#8, 0x26#8]
  | .sla_A => [0xCB#8, 0x27#8]
  | .sra_B => [0xCB#8, 0x28#8]
  | .sra_C => [0xCB#8, 0x29#8]
  | .sra_D => [0xCB#8, 0x2A#8]
  | .sra_E => [0xCB#8, 0x2B#8]
  | .sra_H => [0xCB#8, 0x2C#8]
  | .sra_L => [0xCB#8, 0x2D#8]
  | .sra_atHL => [0xCB#8, 0x2E#8]
  | .sra_A => [0xCB#8, 0x2F#8]
  | .swap_B => [0xCB#8, 0x30#8]
  | .swap_C => [0xCB#8, 0x31#8]
  | .swap_D => [0xCB#8, 0x32#8]
  | .swap_E => [0xCB#8, 0x33#8]
  | .swap_H => [0xCB#8, 0x34#8]
  | .swap_L => [0xCB#8, 0x35#8]
  | .swap_atHL => [0xCB#8, 0x36#8]
  | .swap_A => [0xCB#8, 0x37#8]
  | .srl_B => [0xCB#8, 0x38#8]
  | .srl_C => [0xCB#8, 0x39#8]
  | .srl_D => [0xCB#8, 0x3A#8]
  | .srl_E => [0xCB#8, 0x3B#8]
  | .srl_H => [0xCB#8, 0x3C#8]
  | .srl_L => [0xCB#8, 0x3D#8]
  | .srl_atHL => [0xCB#8, 0x3E#8]
  | .srl_A => [0xCB#8, 0x3F#8]
  | .bit_0_B => [0xCB#8, 0x40#8]
  | .bit_0_C => [0xCB#8, 0x41#8]
  | .bit_0_D => [0xCB#8, 0x42#8]
  | .bit_0_E => [0xCB#8, 0x43#8]
  | .bit_0_H => [0xCB#8, 0x44#8]
  | .bit_0_L => [0xCB#8, 0x45#8]
  | .bit_0_atHL => [0xCB#8, 0x46#8]
  | .bit_0_A => [0xCB#8, 0x47#8]
  | .bit_1_B => [0xCB#8, 0x48#8]
  | .bit_1_C => [0xCB#8, 0x49#8]
  | .bit_1_D => [0xCB#8, 0x4A#8]
  | .bit_1_E => [0xCB#8, 0x4B#8]
  | .bit_1_H => [0xCB#8, 0x4C#8]
  | .bit_1_L => [0xCB#8, 0x4D#8]
  | .bit_1_atHL => [0xCB#8, 0x4E#8]
  | .bit_1_A => [0xCB#8, 0x4F#8]
  | .bit_2_B => [0xCB#8, 0x50#8]
  | .bit_2_C => [0xCB#8, 0x51#8]
  | .bit_2_D => [0xCB#8, 0x52#8]
  | .bit_2_E => [0xCB#8, 0x53#8]
  | .bit_2_H => [0xCB#8, 0x54#8]
  | .bit_2_L => [0xCB#8, 0x55#8]
  | .bit_2_atHL => [0xCB#8, 0x56#8]
  | .bit_2_A => [0xCB#8, 0x57#8]
  | .bit_3_B => [0xCB#8, 0x58#8]
  | .bit_3_C => [0xCB#8, 0x59#8]
  | .bit_3_D => [0xCB#8, 0x5A#8]
  | .bit_3_E => [0xCB#8, 0x5B#8]
  | .bit_3_H => [0xCB#8, 0x5C#8]
  | .bit_3_L => [0xCB#8, 0x5D#8]
  | .bit_3_atHL => [0xCB#8, 0x5E#8]
  | .bit_3_A => [0xCB#8, 0x5F#8]
  | .bit_4_B => [0xCB#8, 0x60#8]
  | .bit_4_C => [0xCB#8, 0x61#8]
  | .bit_4_D => [0xCB#8, 0x62#8]
  | .bit_4_E => [0xCB#8, 0x63#8]
  | .bit_4_H => [0xCB#8, 0x64#8]
  | .bit_4_L => [0xCB#8, 0x65#8]
  | .bit_4_atHL => [0xCB#8, 0x66#8]
  | .bit_4_A => [0xCB#8, 0x67#8]
  | .bit_5_B => [0xCB#8, 0x68#8]
  | .bit_5_C => [0xCB#8, 0x69#8]
  | .bit_5_D => [0xCB#8, 0x6A#8]
  | .bit_5_E => [0xCB#8, 0x6B#8]
  | .bit_5_H => [0xCB#8, 0x6C#8]
  | .bit_5_L => [0xCB#8, 0x6D#8]
  | .bit_5_atHL => [0xCB#8, 0x6E#8]
  | .bit_5_A => [0xCB#8, 0x6F#8]
  | .bit_6_B => [0xCB#8, 0x70#8]
  | .bit_6_C => [0xCB#8, 0x71#8]
  | .bit_6_D => [0xCB#8, 0x72#8]
  | .bit_6_E => [0xCB#8, 0x73#8]
  | .bit_6_H => [0xCB#8, 0x74#8]
  | .bit_6_L => [0xCB#8, 0x75#8]
  | .bit_6_atHL => [0xCB#8, 0x76#8]
  | .bit_6_A => [0xCB#8, 0x77#8]
  | .bit_7_B => [0xCB#8, 0x78#8]
  | .bit_7_C => [0xCB#8, 0x79#8]
  | .bit_7_D => [0xCB#8, 0x7A#8]
  | .bit_7_E => [0xCB#8, 0x7B#8]
  | .bit_7_H => [0xCB#8, 0x7C#8]
  | .bit_7_L => [0xCB#8, 0x7D#8]
  | .bit_7_atHL => [0xCB#8, 0x7E#8]
  | .bit_7_A => [0xCB#8, 0x7F#8]
  | .res_0_B => [0xCB#8, 0x80#8]
  | .res_0_C => [0xCB#8, 0x81#8]
  | .res_0_D => [0xCB#8, 0x82#8]
  | .res_0_E => [0xCB#8, 0x83#8]
  | .res_0_H => [0xCB#8, 0x84#8]
  | .res_0_L => [0xCB#8, 0x85#8]
  | .res_0_atHL => [0xCB#8, 0x86#8]
  | .res_0_A => [0xCB#8, 0x87#8]
  | .res_1_B => [0xCB#8, 0x88#8]
  | .res_1_C => [0xCB#8, 0x89#8]
  | .res_1_D => [0xCB#8, 0x8A#8]
  | .res_1_E => [0xCB#8, 0x8B#8]
  | .res_1_H => [0xCB#8, 0x8C#8]
  | .res_1_L => [0xCB#8, 0x8D#8]
  | .res_1_atHL => [0xCB#8, 0x8E#8]
  | .res_1_A => [0xCB#8, 0x8F#8]
  | .res_2_B => [0xCB#8, 0x90#8]
  | .res_2_C => [0xCB#8, 0x91#8]
  | .res_2_D => [0xCB#8, 0x92#8]
  | .res_2_E => [0xCB#8, 0x93#8]
  | .res_2_H => [0xCB#8, 0x94#8]
  | .res_2_L => [0xCB#8, 0x95#8]
  | .res_2_atHL => [0xCB#8, 0x96#8]
  | .res_2_A => [0xCB#8, 0x97#8]
  | .res_3_B => [0xCB#8, 0x98#8]
  | .res_3_C => [0xCB#8, 0x99#8]
  | .res_3_D => [0xCB#8, 0x9A#8]
  | .res_3_E => [0xCB#8, 0x9B#8]
  | .res_3_H => [0xCB#8, 0x9C#8]
  | .res_3_L => [0xCB#8, 0x9D#8]
  | .res_3_atHL => [0xCB#8, 0x9E#8]
  | .res_3_A => [0xCB#8, 0x9F#8]
  | .res_4_B => [0xCB#8, 0xA0#8]
  | .res_4_C => [0xCB#8, 0xA1#8]
  | .res_4_D => [0xCB#8, 0xA2#8]
  | .res_4_E => [0xCB#8, 0xA3#8]
  | .res_4_H => [0xCB#8, 0xA4#8]
  | .res_4_L => [0xCB#8, 0xA5#8]
  | .res_4_atHL => [0xCB#8, 0xA6#8]
  | .res_4_A => [0xCB#8, 0xA7#8]
  | .res_5_B => [0xCB#8, 0xA8#8]
  | .res_5_C => [0xCB#8, 0xA9#8]
  | .res_5_D => [0xCB#8, 0xAA#8]
  | .res_5_E => [0xCB#8, 0xAB#8]
  | .res_5_H => [0xCB#8, 0xAC#8]
  | .res_5_L => [0xCB#8, 0xAD#8]
  | .res_5_atHL => [0xCB#8, 0xAE#8]
  | .res_5_A => [0xCB#8, 0xAF#8]
  | .res_6_B => [0xCB#8, 0xB0#8]
  | .res_6_C => [0xCB#8, 0xB1#8]
  | .res_6_D => [0xCB#8, 0xB2#8]
  | .res_6_E => [0xCB#8, 0xB3#8]
  | .res_6_H => [0xCB#8, 0xB4#8]
  | .res_6_L => [0xCB#8, 0xB5#8]
  | .res_6_atHL => [0xCB#8, 0xB6#8]
  | .res_6_A => [0xCB#8, 0xB7#8]
  | .res_7_B => [0xCB#8, 0xB8#8]
  | .res_7_C => [0xCB#8, 0xB9#8]
  | .res_7_D => [0xCB#8, 0xBA#8]
  | .res_7_E => [0xCB#8, 0xBB#8]
  | .res_7_H => [0xCB#8, 0xBC#8]
  | .res_7_L => [0xCB#8, 0xBD#8]
  | .res_7_atHL => [0xCB#8, 0xBE#8]
  | .res_7_A => [0xCB#8, 0xBF#8]
  | .set_0_B => [0xCB#8, 0xC0#8]
  | .set_0_C => [0xCB#8, 0xC1#8]
  | .set_0_D => [0xCB#8, 0xC2#8]
  | .set_0_E => [0xCB#8, 0xC3#8]
  | .set_0_H => [0xCB#8, 0xC4#8]
  | .set_0_L => [0xCB#8, 0xC5#8]
  | .set_0_atHL => [0xCB#8, 0xC6#8]
  | .set_0_A => [0xCB#8, 0xC7#8]
  | .set_1_B => [0xCB#8, 0xC8#8]
  | .set_1_C => [0xCB#8, 0xC9#8]
  | .set_1_D => [0xCB#8, 0xCA#8]
  | .set_1_E => [0xCB#8, 0xCB#8]
  | .set_1_H => [0xCB#8, 0xCC#8]
  | .set_1_L => [0xCB#8, 0xCD#8]
  | .set_1_atHL => [0xCB#8, 0xCE#8]
  | .set_1_A => [0xCB#8, 0xCF#8]
  | .set_2_B => [0xCB#8, 0xD0#8]
  | .set_2_C => [0xCB#8, 0xD1#8]
  | .set_2_D => [0xCB#8, 0xD2#8]
  | .set_2_E => [0xCB#8, 0xD3#8]
  | .set_2_H => [0xCB#8, 0xD4#8]
  | .set_2_L => [0xCB#8, 0xD5#8]
  | .set_2_atHL => [0xCB#8, 0xD6#8]
  | .set_2_A => [0xCB#8, 0xD7#8]
  | .set_3_B => [0xCB#8, 0xD8#8]
  | .set_3_C => [0xCB#8, 0xD9#8]
  | .set_3_D => [0xCB#8, 0xDA#8]
  | .set_3_E => [0xCB#8, 0xDB#8]
  | .set_3_H => [0xCB#8, 0xDC#8]
  | .set_3_L => [0xCB#8, 0xDD#8]
  | .set_3_atHL => [0xCB#8, 0xDE#8]
  | .set_3_A => [0xCB#8, 0xDF#8]
  | .set_4_B => [0xCB#8, 0xE0#8]
  | .set_4_C => [0xCB#8, 0xE1#8]
  | .set_4_D => [0xCB#8, 0xE2#8]
  | .set_4_E => [0xCB#8, 0xE3#8]
  | .set_4_H => [0xCB#8, 0xE4#8]
  | .set_4_L => [0xCB#8, 0xE5#8]
  | .set_4_atHL => [0xCB#8, 0xE6#8]
  | .set_4_A => [0xCB#8, 0xE7#8]
  | .set_5_B => [0xCB#8, 0xE8#8]
  | .set_5_C => [0xCB#8, 0xE9#8]
  | .set_5_D => [0xCB#8, 0xEA#8]
  | .set_5_E => [0xCB#8, 0xEB#8]
  | .set_5_H => [0xCB#8, 0xEC#8]
  | .set_5_L => [0xCB#8, 0xED#8]
  | .set_5_atHL => [0xCB#8, 0xEE#8]
  | .set_5_A => [0xCB#8, 0xEF#8]
  | .set_6_B => [0xCB#8, 0xF0#8]
  | .set_6_C => [0xCB#8, 0xF1#8]
  | .set_6_D => [0xCB#8, 0xF2#8]
  | .set_6_E => [0xCB#8, 0xF3#8]
  | .set_6_H => [0xCB#8, 0xF4#8]
  | .set_6_L => [0xCB#8, 0xF5#8]
  | .set_6_atHL => [0xCB#8, 0xF6#8]
  | .set_6_A => [0xCB#8, 0xF7#8]
  | .set_7_B => [0xCB#8, 0xF8#8]
  | .set_7_C => [0xCB#8, 0xF9#8]
  | .set_7_D => [0xCB#8, 0xFA#8]
  | .set_7_E => [0xCB#8, 0xFB#8]
  | .set_7_H => [0xCB#8, 0xFC#8]
  | .set_7_L => [0xCB#8, 0xFD#8]
  | .set_7_atHL => [0xCB#8, 0xFE#8]
  | .set_7_A => [0xCB#8, 0xFF#8]

/-- The bytes an opcode-table word stands for: its lowest `nbits` bits laid out first byte first
(bits 7..0 are the first byte), every bit above `nbits` 0, up to the longest instruction. -/
def tableBytes (nbits w : Nat) : List Byte :=
  let v := w % 2 ^ nbits
  [BitVec.ofNat 8 v, BitVec.ofNat 8 (v / 256), BitVec.ofNat 8 (v / 65536)]

/-- The instruction the decoder reads from an opcode-table word. -/
def decodeTableWord (nbits w : Nat) : Option Instr :=
  match decode (tableBytes nbits w) with
  | .ok (i, _) => some i
  | .error _ => none

end Sys2Proof
end

