-- ==== Sys2Proof/Machine/Flags.lean ====
section
/-! DEFINITION. The flags byte (10_state R23 to R25) and every flag and result computation of the ALU,
16-bit, rotate and bit instructions (41_alu8, 42_alu16, 43_bitops). -/

namespace Sys2Proof.Machine

/-- The four flags Z, N, H, C. -/
structure Flags where
  z : Bool
  n : Bool
  h : Bool
  c : Bool
  deriving DecidableEq, Repr

/-- The flags in a flags byte: Z bit 7, N bit 6, H bit 5, C bit 4 (R23). -/
def Flags.ofByte (f : Byte) : Flags :=
  { z := f.getLsbD 7, n := f.getLsbD 6, h := f.getLsbD 5, c := f.getLsbD 4 }

/-- The flags byte of four flags; bits 3..0 are 0 (R23, R24). -/
def Flags.toByte (g : Flags) : Byte :=
  BitVec.ofBool g.z ++ BitVec.ofBool g.n ++ BitVec.ofBool g.h ++ BitVec.ofBool g.c ++ 0#4

/-- Half-carry of `a + v + cin` (R131). -/
def addHalf (a v : Byte) (cin : Bool) : Bool := decide (0xF < a.toNat % 16 + v.toNat % 16 + cin.toNat)

/-- Carry of `a + v + cin` (R131). -/
def addCarry (a v : Byte) (cin : Bool) : Bool := decide (0xFF < a.toNat + v.toNat + cin.toNat)

/-- Half-borrow of `a - v - cin` (R132). -/
def subHalf (a v : Byte) (cin : Bool) : Bool := decide (a.toNat % 16 < v.toNat % 16 + cin.toNat)

/-- Borrow of `a - v - cin` (R132). -/
def subCarry (a v : Byte) (cin : Bool) : Bool := decide (a.toNat < v.toNat + cin.toNat)

/-- A carry as a byte. -/
def carryByte (c : Bool) : Byte := if c then 1#8 else 0#8

/-- Zero law (R133). -/
def isZero (r : Byte) : Bool := decide (r = 0#8)

/-- `r` and the flags of `a + v + cin` (R131, R133, R134). -/
def add8 (a v : Byte) (cin : Bool) : Byte × Flags :=
  let r := a + v + carryByte cin
  (r, { z := isZero r, n := false, h := addHalf a v cin, c := addCarry a v cin })

/-- `r` and the flags of `a - v - cin` (R132, R133, R134). -/
def sub8 (a v : Byte) (cin : Bool) : Byte × Flags :=
  let r := a - v - carryByte cin
  (r, { z := isZero r, n := true, h := subHalf a v cin, c := subCarry a v cin })

/-- `r` with the flags of a logical operation, H as given (R139 to R141). -/
def logic8 (r : Byte) (h : Bool) : Byte × Flags := (r, { z := isZero r, n := false, h := h, c := false })

/-- The primary result and the flags of an ALU operation on `a` and `v`, with carry `c` before it (R135
to R142). -/
def alu8 (op : Alu) (a v : Byte) (c : Bool) : Byte × Flags :=
  match op with
  | .add => add8 a v false
  | .adc => add8 a v c
  | .sub => sub8 a v false
  | .sbc => sub8 a v c
  | .and => logic8 (a &&& v) true
  | .xor => logic8 (a ^^^ v) false
  | .or => logic8 (a ||| v) false
  | .cp => sub8 a v false

/-- Whether the operation writes its result to A: all but CP (R142). -/
def aluWritesA (op : Alu) : Bool :=
  match op with
  | .add | .adc | .sub | .sbc | .and | .xor | .or => true
  | .cp => false

/-- `v + 1` and the flags of INC r8 (R143); C is kept. -/
def inc8 (v : Byte) (g : Flags) : Byte × Flags :=
  (v + 1#8, { z := isZero (v + 1#8), n := false, h := decide (v.toNat % 16 = 0xF), c := g.c })

/-- `v - 1` and the flags of DEC r8 (R144); C is kept. -/
def dec8 (v : Byte) (g : Flags) : Byte × Flags :=
  (v - 1#8, { z := isZero (v - 1#8), n := true, h := decide (v.toNat % 16 = 0x0), c := g.c })

/-- DAA: its adjustment `u` (R145). -/
def daaAdjust (a : Byte) (g : Flags) : Byte :=
  (if g.h ∨ (g.n = false ∧ 0x9 < a.toNat % 16) then 0x06#8 else 0x00#8) |||
  (if g.c ∨ (g.n = false ∧ 0x99 < a.toNat) then 0x60#8 else 0x00#8)

/-- DAA: the result and the flags (R145). -/
def daa8 (a : Byte) (g : Flags) : Byte × Flags :=
  let u := daaAdjust a g
  let r := if g.n then a - u else a + u
  (r, { z := isZero r, n := g.n, h := false, c := g.c || (!g.n && decide (0x99 < a.toNat)) })

/-- The sum and the flags of ADD HL,r16 (R162); Z is kept. -/
def addHl16 (h v : Word) (g : Flags) : Word × Flags :=
  (h + v,
    { z := g.z, n := false, h := decide (0xFFF < h.toNat % 0x1000 + v.toNat % 0x1000)
      c := decide (0xFFFF < h.toNat + v.toNat) })

/-- The sum and the flags of ADD SP,e8 and LD HL,SP+e8 (R163, R164): the unsigned addition of the low
byte of SP and the offset byte. -/
def addSpE8 (s : Word) (n : Byte) : Word × Flags :=
  (s + sext16 n,
    { z := false, n := false, h := decide (0xF < s.toNat % 16 + n.toNat % 16)
      c := decide (0xFF < s.toNat % 256 + n.toNat) })

/-- The result of a rotate or shift of `v`, with carry `c` before it (R174 to R181). -/
def rotResult (op : Rot) (v : Byte) (c : Bool) : Byte :=
  match op with
  | .rlc => v <<< 1 ||| carryByte (v.getLsbD 7)
  | .rrc => v >>> 1 ||| carryByte (v.getLsbD 0) <<< 7
  | .rl => v <<< 1 ||| carryByte c
  | .rr => v >>> 1 ||| carryByte c <<< 7
  | .sla => v <<< 1
  | .sra => v >>> 1 ||| v &&& 0x80#8
  | .swap => v <<< 4 ||| v >>> 4
  | .srl => v >>> 1

/-- The carry out of a rotate or shift of `v` (R174 to R181). -/
def rotCarry (op : Rot) (v : Byte) : Bool :=
  match op with
  | .rlc | .rl | .sla => v.getLsbD 7
  | .rrc | .rr | .sra | .srl => v.getLsbD 0
  | .swap => false

/-- Result and flags of a prefixed rotate or shift: Z from the result (R174 to R181). -/
def rot8 (op : Rot) (v : Byte) (c : Bool) : Byte × Flags :=
  let r := rotResult op v c
  (r, { z := isZero r, n := false, h := false, c := rotCarry op v })

/-- Result and flags of an accumulator rotate: Z is 0 (R170 to R173). -/
def rotA8 (op : Rot) (v : Byte) (c : Bool) : Byte × Flags :=
  (rotResult op v c, { z := false, n := false, h := false, c := rotCarry op v })

/-- The flags of BIT (R182); C is kept. -/
def bitFlags (b : Fin 8) (v : Byte) (g : Flags) : Flags :=
  { z := !v.getLsbD b, n := false, h := true, c := g.c }

/-- `v & ~(1 << b)` (R183). -/
def resetBit (b : Fin 8) (v : Byte) : Byte := v &&& ~~~(1#8 <<< b.val)

/-- `v | (1 << b)` (R184). -/
def setBit (b : Fin 8) (v : Byte) : Byte := v ||| (1#8 <<< b.val)

end Sys2Proof.Machine
end

