-- ==== Sys2Proof/Config.lean ====
section
/-! DEFINITION. What an implementation or its environment fixes, and the free values: the named
parameters of 00_scope R9 as plain data, the cartridge (20_memory R66), and the environment oracle
`P_EXT` (20_memory R60) as an uninterpreted constant. -/

namespace Sys2Proof.Machine

/-- `P_DMA` (R62): what a write to 0xFF46 does. -/
inductive DmaMode where
  | refuse
  | instant
  deriving DecidableEq, Repr

/-- `P_BANK_OOR` (R64): how a bank index past the declared size is fitted. -/
inductive BankOor where
  | wrap
  | saturate
  deriving DecidableEq, Repr

/-- The three behavioural parameters of R9. A machine is built with one value of each and keeps it. -/
structure Params where
  haltBug : Bool
  dma : DmaMode
  bankOor : BankOor
  deriving DecidableEq, Repr

/-- The defaults of R9. -/
def Params.default : Params := { haltBug := false, dma := .refuse, bankOor := .wrap }

/-- The cartridge types of header byte 0x0147 that load (R66): 0x00, 0x01, 0x02, 0x03. -/
inductive CartType where
  | romOnly
  | mbc1
  | mbc1Ram
  | mbc1RamBattery
  deriving DecidableEq, Repr

/-- `P_CART`: the image (cells of the ROM, an unlisted index reads 0xFF as R52 says of a byte past the
end of the image) and the header constants that R66 reads from it once, at load. -/
structure Cartridge where
  image : List Host.Cell
  kind : CartType
  romCode : Fin 9
  ramCode : Fin 6
  deriving DecidableEq, Repr

/-- One entry of the access history that `P_EXT` sees (R60, R69): a read of an external device
register, or the event `ExtWrite(a, v)`. -/
inductive ExtEvent where
  | read (a : Word)
  | write (a : Word) (v : Byte)
  deriving DecidableEq, Repr

/-- `P_EXT(history, a)` (R60): the byte the environment answers to a read of the external device
register at `a`. A FREE VALUE: it has no body that a proof can see (log entry 6). -/
opaque Config.extAnswer : List ExtEvent → Word → Byte

end Sys2Proof.Machine
end

