-- ==== Sys2Proof/Machine/State.lean ====
section
/-! DEFINITION. Every piece of state the spec gives the machine, as plain data (INVENTORY.md lists each
with its rule), the reasons a step can stop, and the state after reset (10_state R46 and R47). -/

namespace Sys2Proof.Machine

/-- The one fault (60_exceptions R234). Raised by the meanings of the eleven ILLEGAL rows (45_system
R215). Safe: the spec itself stops there. -/
inductive Fault where
  | decodeError (addr : Word) (opcode : Byte)
  deriving DecidableEq, Repr

/-- The refusals (60_exceptions R235). `notModelled` stands for an instruction without a meaning and is
raised by no arm. `stopUnmodelled` is raised by STOP (R212), `dmaUnmodelled` by a write to 0xFF46 when
`P_DMA = refuse` (R62). Safe: the spec itself refuses there. -/
inductive Refusal where
  | notModelled (mnemonic : String)
  | stopUnmodelled
  | dmaUnmodelled
  deriving DecidableEq, Repr

/-- The Register File (R20). `f` is the flags byte of R23. -/
structure Regs where
  a : Byte
  f : Byte
  b : Byte
  c : Byte
  d : Byte
  e : Byte
  h : Byte
  l : Byte
  deriving DecidableEq, Repr

/-- Interrupt and execution control: IME, ei_delay, halted, hb_pending (R29 to R31), the five storage
bits of IF (R33) and IE (R34). -/
structure Irq where
  ime : Bool
  eiDelay : Nat
  halted : Bool
  hbPending : Bool
  ifr : BitVec 5
  ie : Byte
  deriving DecidableEq, Repr

/-- The mapper's control state (R43). -/
structure MapperState where
  ramEnable : Bool
  romBankLo : BitVec 5
  bankHi : BitVec 2
  bankMode : Bool
  deriving DecidableEq, Repr

/-- The four scan phases (R36, R45). -/
inductive PpuMode where
  | hBlank
  | vBlank
  | oamScan
  | transfer
  deriving DecidableEq, Repr

/-- The rows of the frame buffer (R45): row index and its 160 shades, rising, a row equal to the blank
row left out. -/
abbrev FrameRows := List (Nat × List (BitVec 2))

/-- The PPU's registers (R35 to R41) and internal state (R45). `statEn` is STAT[6:3]. -/
structure Ppu where
  lcdc : Byte
  statEn : BitVec 4
  scy : Byte
  scx : Byte
  ly : Byte
  lyc : Byte
  dma : Byte
  bgp : Byte
  obp0 : Byte
  obp1 : Byte
  wy : Byte
  wx : Byte
  mode : PpuMode
  dot : Nat
  lycEq : Bool
  sel : List Nat
  fb : FrameRows
  deriving DecidableEq, Repr

/-- A non-fatal report (R6, R236). -/
inductive Report where
  | unmappedRead (addr : Word)
  | unmappedWrite (addr : Word)
  | bankOutOfRange (value : Nat)
  deriving DecidableEq, Repr

/-- The request bits the environment raises at the start of one system step (R241). -/
structure EnvRequest where
  timer : Bool
  serial : Bool
  joypad : Bool
  deriving DecidableEq, Repr

/-- What the last step returned beside the state: its cycle count and its reports in access order
(R6, R236), and the frame of its `FrameReady` event, if it emitted one (R258). -/
structure StepOut where
  cycles : Nat
  reports : List Report
  frame : Option FrameRows
  deriving DecidableEq, Repr

structure State where
  regs : Regs
  sp : Word
  pc : Word
  start : Word
  irq : Irq
  ppu : Ppu
  mapper : MapperState
  bootMapped : Bool
  mem : List Host.Cell
  aud : List Host.Cell
  cart : Cartridge
  boot : List Host.Cell
  params : Params
  env : List EnvRequest
  extHistory : List ExtEvent
  fault : Option Fault
  refused : Option Refusal
  out : StepOut
  deriving DecidableEq, Repr

/-- `P_POWERON` (R271): one value per field that R46 or R47 leaves unspecified. `aud` is the audio
store, whose wave table alone is used when there is no boot image. -/
structure PowerOn where
  regs : Regs
  sp : Word
  dma : Byte
  bgp : Byte
  obp0 : Byte
  obp1 : Byte
  fb : FrameRows
  mem : List Host.Cell
  aud : List Host.Cell
  deriving DecidableEq, Repr

/-- What a machine is built from: the parameters `P_CART`, `P_BOOT`, `P_HALT_BUG`, `P_DMA`,
`P_BANK_OOR`, `P_POWERON` of R9 and the environment's request sets (R241). -/
structure Setup where
  cart : Cartridge
  boot : Option (List Host.Cell)
  params : Params
  draws : PowerOn
  env : List EnvRequest
  deriving DecidableEq, Repr

/-- The audio control registers after reset without a boot image (R46); a register whose value is 0x00
is not listed. -/
def audioReset : List Host.Cell :=
  [(0xFF10, 0x80), (0xFF11, 0xBF), (0xFF12, 0xF3), (0xFF13, 0xFF), (0xFF14, 0xBF), (0xFF16, 0x3F),
    (0xFF18, 0xFF), (0xFF19, 0xBF), (0xFF1A, 0x7F), (0xFF1B, 0xFF), (0xFF1C, 0x9F)] ++
  [(0xFF1D, 0xFF), (0xFF1E, 0xBF), (0xFF20, 0xFF), (0xFF23, 0xBF), (0xFF24, 0x77), (0xFF25, 0xF3),
    (0xFF26, 0xF1)]

/-- Nothing returned yet (log entry 8). -/
def StepOut.none : StepOut := { cycles := 0, reports := [], frame := Option.none }

/-- The mapper state after either reset (R46, R47). -/
def MapperState.initial : MapperState :=
  { ramEnable := false, romBankLo := 0, bankHi := 0, bankMode := false }

/-- Reset without a boot image (R46). -/
def State.resetNoBoot (u : Setup) : State :=
  { regs := { a := 0x01, f := 0xB0, b := 0x00, c := 0x13, d := 0x00, e := 0xD8, h := 0x01, l := 0x4D }
    sp := 0xFFFE
    pc := 0x0100
    start := 0
    irq := { ime := false, eiDelay := 0, halted := false, hbPending := false, ifr := 0b00001, ie := 0x00 }
    ppu :=
      { lcdc := 0x91, statEn := 0, scy := 0, scx := 0, ly := 0, lyc := 0, dma := 0xFF, bgp := 0xFC
        obp0 := u.draws.obp0, obp1 := u.draws.obp1, wy := 0, wx := 0, mode := .oamScan, dot := 0
        lycEq := true, sel := [], fb := u.draws.fb }
    mapper := MapperState.initial
    bootMapped := false
    mem := u.draws.mem
    aud := audioReset ++ u.draws.aud.filter (fun c => 0xFF30 ≤ c.1)
    cart := u.cart
    boot := []
    params := u.params
    env := u.env
    extHistory := []
    fault := none
    refused := none
    out := StepOut.none }

/-- Reset with the boot image `img` (R47); a drawn `F` keeps its low nibble 0 (R24, R271). -/
def State.resetBoot (u : Setup) (img : List Host.Cell) : State :=
  { regs := { u.draws.regs with f := u.draws.regs.f &&& 0xF0 }
    sp := u.draws.sp
    pc := 0x0000
    start := 0
    irq := { ime := false, eiDelay := 0, halted := false, hbPending := false, ifr := 0, ie := 0x00 }
    ppu :=
      { lcdc := 0x00, statEn := 0, scy := 0, scx := 0, ly := 0, lyc := 0, dma := u.draws.dma
        bgp := u.draws.bgp, obp0 := u.draws.obp0, obp1 := u.draws.obp1, wy := 0, wx := 0
        mode := .hBlank, dot := 0, lycEq := true, sel := [], fb := u.draws.fb }
    mapper := MapperState.initial
    bootMapped := true
    mem := u.draws.mem
    aud := u.draws.aud
    cart := u.cart
    boot := img
    params := u.params
    env := u.env
    extHistory := []
    fault := none
    refused := none
    out := StepOut.none }

/-- Power-on reset (R270), for every cartridge, boot image, parameter value, draw and environment. -/
def State.resetWith (u : Setup) : State :=
  match u.boot with
  | none => State.resetNoBoot u
  | some img => State.resetBoot u img

/-- The draw that `State.reset` uses: every unspecified value 0 (log entries 1 to 3). -/
def PowerOn.zero : PowerOn :=
  { regs := { a := 0, f := 0, b := 0, c := 0, d := 0, e := 0, h := 0, l := 0 }
    sp := 0, dma := 0, bgp := 0, obp0 := 0, obp1 := 0, fb := [], mem := [], aud := [] }

/-- The smallest cartridge that loads (R66, R272): the header bytes 0x0147 to 0x0149 are 0 (ROM only, two
banks, no RAM), every other byte is past the end of the image or reads 0xFF (log entry 4). -/
def Cartridge.blank : Cartridge :=
  { image := [(0x0147, 0x00), (0x0148, 0x00), (0x0149, 0x00)], kind := .romOnly, romCode := 0, ramCode := 0 }

/-- The defaults of R9 and R241, the blank cartridge and the zero draw. -/
def Setup.default : Setup :=
  { cart := Cartridge.blank, boot := none, params := Params.default, draws := PowerOn.zero, env := [] }

/-- The machine right after reset (R46). -/
def State.reset : State := State.resetWith Setup.default

end Sys2Proof.Machine
end

