-- ==== Sys2Proof/Machine/Cells.lean ====
section
/-! DEFINITION. The one sparse store behind every memory of the machine: a list of (key, value) pairs in
canonical form, keys strictly rising and no value equal to what an unlisted key reads as. -/

namespace Sys2Proof.Machine

/-- The value at `k`; `dflt` is what an unlisted key reads as. -/
def readCells {α : Type} (dflt : α) (m : List (Nat × α)) (k : Nat) : α :=
  match m with
  | [] => dflt
  | (j, v) :: r => if j = k then v else readCells dflt r k

/-- `m` with `v` at `k`, in canonical form again. -/
def writeCells {α : Type} [DecidableEq α] (dflt : α) (m : List (Nat × α)) (k : Nat) (v : α) : List (Nat × α) :=
  match m with
  | [] => if v = dflt then [] else [(k, v)]
  | (j, x) :: r =>
    if k < j then (if v = dflt then (j, x) :: r else (k, v) :: (j, x) :: r)
    else if k = j then (if v = dflt then r else (k, v) :: r)
    else (j, x) :: writeCells dflt r k v

/-- Canonical form from key `lo` upward. -/
def cellsWfFrom {α : Type} [DecidableEq α] (dflt : α) (lo : Nat) (m : List (Nat × α)) : Bool :=
  match m with
  | [] => true
  | (j, v) :: r => decide (lo ≤ j) && decide (v ≠ dflt) && cellsWfFrom dflt (j + 1) r

/-- The canonical form. -/
def cellsWf {α : Type} [DecidableEq α] (dflt : α) (m : List (Nat × α)) : Bool := cellsWfFrom dflt 0 m

/-- The cells of a byte string laid out from key `k` upward. -/
def cellsOf (dflt : Byte) (k : Nat) (bs : List Byte) : List Host.Cell :=
  match bs with
  | [] => []
  | b :: r => if b = dflt then cellsOf dflt (k + 1) r else (k, b) :: cellsOf dflt (k + 1) r

/-- What a byte of RAM or of the audio store that the list does not hold reads as: the draw of
`P_POWERON` that `State.reset` takes (R271; log entry 1). Another draw is another list. -/
def unlistedByte : Byte := 0x00

/-- What a byte of a ROM image that the list does not hold reads as: R52 and R57, 0xFF. -/
def unlistedRom : Byte := 0xFF

/-- The frame-buffer row that the list does not hold: 160 times shade 0 (log entry 3). -/
def blankRow : List (BitVec 2) := List.replicate 160 0

/-- The canonical form of RAM and of the audio store. -/
def Memory.wf (m : List Host.Cell) : Bool := cellsWf unlistedByte m

/-- The canonical form of a ROM image. -/
def Rom.wf (m : List Host.Cell) : Bool := cellsWf unlistedRom m

end Sys2Proof.Machine
end

