-- ==== Sys2Proof/Machine/Cartridge.lean ====
section
/-! DEFINITION. The cartridge: its loader and header (20_memory R66, 70_reset R272), and the mapper
(R63 to R65). -/

namespace Sys2Proof.Machine

/-- Header byte 0x0147 (R66); another value is a load error. -/
def cartTypeOfByte (b : Byte) : Option CartType :=
  match b.toNat with
  | 0 => some .romOnly
  | 1 => some .mbc1
  | 2 => some .mbc1Ram
  | 3 => some .mbc1RamBattery
  | _ => none

/-- `RomByte(i)`: byte `i` of the image, or 0xFF past its end (R52). -/
def Cartridge.byte (c : Cartridge) (i : Nat) : Byte := readCells unlistedRom c.image i

/-- The external loader (R66, R272): the cartridge of an image, or none, which is the
`CARTRIDGE_LOAD_ERROR` that no step ever returns (R236). -/
def Cartridge.load (bs : List Byte) : Option Cartridge :=
  let image := cellsOf unlistedRom 0 bs
  let rom := (readCells unlistedRom image 0x0148).toNat
  let ram := (readCells unlistedRom image 0x0149).toNat
  match cartTypeOfByte (readCells unlistedRom image 0x0147) with
  | none => none
  | some k =>
    if hr : rom < 9 then
      if hm : ram < 6 then some { image := image, kind := k, romCode := ⟨rom, hr⟩, ramCode := ⟨ram, hm⟩ }
      else none
    else none

/-- `P_BOOT` (R9, R57): the cells of a boot image of at most 256 bytes. -/
def bootImageLoad (bs : List Byte) : Option (List Host.Cell) :=
  if bs.length ≤ 256 then some (cellsOf unlistedRom 0 bs) else none

/-- The title, bytes 0x0134 to 0x0143 (R66); read by no rule. -/
def Cartridge.title (c : Cartridge) : List Byte := (List.range 16).map (fun i => c.byte (0x0134 + i))

/-- The colour-mode flag, byte 0x0143 (R66); read by no rule. -/
def Cartridge.colourFlag (c : Cartridge) : Byte := c.byte 0x0143

/-- `rom_banks = 2 << code` (R66). -/
def Cartridge.romBanks (c : Cartridge) : Nat := 2 <<< c.romCode.val

/-- The RAM bytes of a RAM size code (R66). -/
def ramBytesOfCode (k : Fin 6) : Nat :=
  match k with
  | 0 => 0
  | 1 => 0x800
  | 2 => 0x2000
  | 3 => 0x8000
  | 4 => 0x20000
  | 5 => 0x10000

/-- `ram_size` (R66): 0 for the types without RAM, whatever the code says. -/
def Cartridge.ramSize (c : Cartridge) : Nat :=
  match c.kind with
  | .romOnly => 0
  | .mbc1 => 0
  | .mbc1Ram => ramBytesOfCode c.ramCode
  | .mbc1RamBattery => ramBytesOfCode c.ramCode

/-- `ram_banks = max(1, ram_size / 0x2000)` (R64). -/
def Cartridge.ramBanks (c : Cartridge) : Nat := max 1 (c.ramSize / 0x2000)

/-- Whether the mapper is MBC1 (R66). -/
def Cartridge.isMbc1 (c : Cartridge) : Bool :=
  match c.kind with
  | .romOnly => false
  | .mbc1 => true
  | .mbc1Ram => true
  | .mbc1RamBattery => true

/-- `lo5` (R64): the register value 0 aliases to 1. -/
def MapperState.lo5 (m : MapperState) : Nat := if m.romBankLo = 0 then 1 else m.romBankLo.toNat

/-- `raw_4000` (R64). -/
def MapperState.raw4000 (m : MapperState) : Nat := m.bankHi.toNat * 32 + m.lo5

/-- `raw_0000` (R64). -/
def MapperState.raw0000 (m : MapperState) : Nat := if m.bankMode then m.bankHi.toNat * 32 else 0

/-- `raw_ram` (R64). -/
def MapperState.rawRam (m : MapperState) : Nat := if m.bankMode then m.bankHi.toNat else 0

/-- `fit(b, n)` (R64). -/
def fitBank (p : BankOor) (b n : Nat) : Nat :=
  if b < n then b
  else
    match p with
    | .wrap => b % n
    | .saturate => n - 1

/-- `bank_4000` (R64, R65). -/
def State.bank4000 (s : State) : Nat :=
  if s.cart.isMbc1 then fitBank s.params.bankOor s.mapper.raw4000 s.cart.romBanks else 1

/-- `bank_0000` (R64, R65). -/
def State.bank0000 (s : State) : Nat :=
  if s.cart.isMbc1 then fitBank s.params.bankOor s.mapper.raw0000 s.cart.romBanks else 0

/-- `ram_bank` (R64). -/
def State.ramBank (s : State) : Nat :=
  if s.cart.isMbc1 then fitBank s.params.bankOor s.mapper.rawRam s.cart.ramBanks else 0

/-- The external-RAM window is accessible (R55, R65). -/
def State.extRamOpen (s : State) : Bool := s.mapper.ramEnable && decide (0 < s.cart.ramSize)

/-- The key of `eram[i]` in `mem`: the external RAM lies above the 16-bit addresses. -/
def eramKey (i : Nat) : Nat := 0x10000 + i

/-- The key of the external-RAM byte that window address `a` reaches (R55). -/
def State.extRamKey (s : State) (a : Word) : Nat :=
  eramKey ((s.ramBank * 0x2000 + (a.toNat - 0xA000)) % s.cart.ramSize)

/-- The mapper registers after the control write of `v` to `a` (R63). -/
def MapperState.control (m : MapperState) (a : Word) (v : Byte) : MapperState :=
  if a.toNat < 0x2000 then { m with ramEnable := decide (v.extractLsb' 0 4 = 0xA#4) }
  else if a.toNat < 0x4000 then { m with romBankLo := v.extractLsb' 0 5 }
  else if a.toNat < 0x6000 then { m with bankHi := v.extractLsb' 0 2 }
  else { m with bankMode := v.getLsbD 0 }

/-- The `BANK_OUT_OF_RANGE` reports of mapper state `m` (R64), in the order of R64's text (log entry
13). -/
def Cartridge.bankReports (c : Cartridge) (m : MapperState) : List Report :=
  (if c.romBanks ≤ m.raw4000 then [Report.bankOutOfRange m.raw4000] else []) ++
  (if c.romBanks ≤ m.raw0000 then [Report.bankOutOfRange m.raw0000] else []) ++
  (if 0 < c.ramSize ∧ c.ramBanks ≤ m.rawRam then [Report.bankOutOfRange m.rawRam] else [])

/-- `report` (R15): a non-fatal report, after the ones already made in this step. -/
def State.report (s : State) (r : List Report) : State :=
  { s with out := { s.out with reports := s.out.reports ++ r } }

/-- A write of `v` to `a` in 0x0000..0x7FFF (R63, R64); nothing on a ROM-only cartridge. -/
def mapperWrite (a : Word) (v : Byte) (s : State) : State :=
  if s.cart.isMbc1 then
    let m := s.mapper.control a v
    { s with mapper := m }.report (s.cart.bankReports m)
  else s

end Sys2Proof.Machine
end

