-- ==== Sys2Proof/Machine/Ppu.lean ====
section
/-! DEFINITION. Interrupt requests and the PPU as the core sees it (60_exceptions R222, R245 to R258):
one tick, the OAM scan, the rendering of a line, and the register writes with side effects. -/

namespace Sys2Proof.Machine

/-- `raise(i)` (R222). -/
def State.raise (s : State) (i : Nat) : State :=
  { s with irq := { s.irq with ifr := s.irq.ifr ||| (1#5 <<< i) } }

/-- `raise(i)` if the condition holds. -/
def State.raiseIf (s : State) (b : Bool) (i : Nat) : State := if b then s.raise i else s

/-- The byte of RAM at a key (R44). -/
def State.ram (s : State) (k : Nat) : Byte := readCells unlistedByte s.mem k

/-- `vram[i]` (R54). -/
def State.vram (s : State) (i : Nat) : Byte := s.ram (0x8000 + i)

/-- `oam[i]` (R58). -/
def State.oam (s : State) (i : Nat) : Byte := s.ram (0xFE00 + i)

/-- The mode bits STAT[1:0] (R36). -/
def PpuMode.code (m : PpuMode) : BitVec 2 :=
  match m with
  | .hBlank => 0
  | .vBlank => 1
  | .oamScan => 2
  | .transfer => 3

/-- The read value of STAT (R36): `1 : stat_en[6:3] : lyc_eq : mode[1:0]`. -/
def Ppu.stat (p : Ppu) : Byte := 1#1 ++ p.statEn ++ BitVec.ofBool p.lycEq ++ p.mode.code

/-- The bits `lo` and `hi` of one pixel as a colour index (R254): `(hi << 1) | lo`. -/
def colourIndex (hi lo : Bool) : BitVec 2 := BitVec.ofBool hi ++ BitVec.ofBool lo

/-- The pixel in column `col` of the tile row whose two bitplane bytes stand at `vram[i]` and
`vram[i + 1]`; the leftmost pixel is bit 7 (R254, R256). -/
def State.planePixel (s : State) (i col : Nat) : BitVec 2 :=
  colourIndex ((s.vram (i + 1)).getLsbD (7 - col)) ((s.vram i).getLsbD (7 - col))

/-- The offset in video RAM of background or window tile `t` (R254): unsigned from 0x8000 when LCDC[4]
is set, else signed relative to 0x9000. -/
def Ppu.tileBase (p : Ppu) (t : Byte) : Nat :=
  if p.lcdc.getLsbD 4 then 16 * t.toNat else (0x1000 + 16 * t.toInt).toNat

/-- `tile_pixel(t, row, col)` (R254). -/
def State.tilePixel (s : State) (t : Byte) (row col : Nat) : BitVec 2 :=
  s.planePixel (s.ppu.tileBase t + 2 * row) col

/-- The offset in video RAM of the tile map that an LCDC bit selects: 0x9C00 or 0x9800 (R253, R255). -/
def mapBase (bit : Bool) : Nat := if bit then 0x1C00 else 0x1800

/-- The tile index at map coordinates `(x, y)` of the map at offset `base` (R253, R255). -/
def State.mapTile (s : State) (base x y : Nat) : Byte := s.vram (base + (y / 8) * 32 + x / 8)

/-- The background index of pixel `x` (R253). -/
def State.bgIndex (s : State) (x : Nat) : BitVec 2 :=
  let bx := (x + s.ppu.scx.toNat) % 256
  let by_ := (s.ppu.ly.toNat + s.ppu.scy.toNat) % 256
  s.tilePixel (s.mapTile (mapBase (s.ppu.lcdc.getLsbD 3)) bx by_) (by_ % 8) (bx % 8)

/-- Pixel `x` lies in the window (R255). -/
def Ppu.inWindow (p : Ppu) (x : Nat) : Bool :=
  p.lcdc.getLsbD 5 && decide (p.wy.toNat ≤ p.ly.toNat) && decide (p.wx.toNat ≤ x + 7)

/-- The window index of pixel `x` (R255). -/
def State.windowIndex (s : State) (x : Nat) : BitVec 2 :=
  let wx := x + 7 - s.ppu.wx.toNat
  let wy := s.ppu.ly.toNat - s.ppu.wy.toNat
  s.tilePixel (s.mapTile (mapBase (s.ppu.lcdc.getLsbD 6)) wx wy) (wy % 8) (wx % 8)

/-- `bgwin_index(X)` (R255). -/
def State.bgwinIndex (s : State) (x : Nat) : BitVec 2 :=
  if s.ppu.inWindow x then s.windowIndex x else s.bgIndex x

/-- The sprite height `h` (R251, LCDC[2]). -/
def Ppu.spriteHeight (p : Ppu) : Nat := if p.lcdc.getLsbD 2 then 16 else 8

/-- Sprite `n` covers line LY (R251): `Y <= LY + 16 < Y + h`. -/
def State.spriteOnLine (s : State) (n : Nat) : Bool :=
  decide ((s.oam (4 * n)).toNat ≤ s.ppu.ly.toNat + 16) &&
  decide (s.ppu.ly.toNat + 16 < (s.oam (4 * n)).toNat + s.ppu.spriteHeight)

/-- The selection of R251: the first ten sprites on the line, lowest table index first. -/
def State.oamSelect (s : State) : List Nat := ((List.range 40).filter s.spriteOnLine).take 10

/-- Sprite `n` covers column `x` (R256): `sx <= X < sx + 8` with `sx = oam[4n+1] - 8`. -/
def State.spriteOnColumn (s : State) (n x : Nat) : Bool :=
  decide ((s.oam (4 * n + 1)).toNat ≤ x + 8) && decide (x < (s.oam (4 * n + 1)).toNat)

/-- The colour index of sprite `n` at column `x` of line LY, which it covers (R256). -/
def State.spriteIndex (s : State) (n x : Nat) : BitVec 2 :=
  let att := s.oam (4 * n + 3)
  let col := x + 8 - (s.oam (4 * n + 1)).toNat
  let row := s.ppu.ly.toNat + 16 - (s.oam (4 * n)).toNat
  let col := if att.getLsbD 5 then 7 - col else col
  let row := if att.getLsbD 6 then s.ppu.spriteHeight - 1 - row else row
  let t := if s.ppu.spriteHeight = 16 then s.oam (4 * n + 2) &&& 0xFE#8 else s.oam (4 * n + 2)
  s.planePixel (16 * t.toNat + 2 * row) col

/-- The palette of sprite `n` (R256): attribute bit 4. -/
def State.spritePalette (s : State) (n : Nat) : Byte :=
  if (s.oam (4 * n + 3)).getLsbD 4 then s.ppu.obp1 else s.ppu.obp0

/-- `sprite_pixel(X, ci, pal)` (R256) over the sprites `ns`: each opaque one overwrites. -/
def State.spritePixel (s : State) (x : Nat) (ns : List Nat) (px : BitVec 2 × Byte) : BitVec 2 × Byte :=
  match ns with
  | [] => px
  | n :: r =>
    if s.spriteOnColumn n x && decide (s.spriteIndex n x ≠ 0) then
      s.spritePixel x r (s.spriteIndex n x, s.spritePalette n)
    else s.spritePixel x r px

/-- `shade(pal, ci)` (R257): `pal[2*ci + 1 : 2*ci]`. -/
def shade (pal : Byte) (ci : BitVec 2) : BitVec 2 := pal.extractLsb' (2 * ci.toNat) 2

/-- The shade of pixel `x` of line LY (R252). -/
def State.pixel (s : State) (x : Nat) : BitVec 2 :=
  let px := (s.bgwinIndex x, s.ppu.bgp)
  let px := if s.ppu.lcdc.getLsbD 1 then s.spritePixel x s.ppu.sel px else px
  shade px.2 px.1

/-- Row LY of the frame (R252). -/
def State.lineRow (s : State) : List (BitVec 2) := (List.range 160).map s.pixel

/-- `render_line()` (R252). -/
def renderLine (s : State) : State :=
  { s with ppu := { s.ppu with fb := writeCells blankRow s.ppu.fb s.ppu.ly.toNat s.lineRow } }

/-- `compare_lyc()` (R249). -/
def compareLyc (s : State) : State :=
  let eq := decide (s.ppu.ly = s.ppu.lyc)
  { s with ppu := { s.ppu with lycEq := eq } }.raiseIf (eq && s.ppu.statEn.getLsbD 3) 1

/-- `snapshot()` (R258): the event `FrameReady(fb)`. -/
def snapshot (s : State) : State := { s with out := { s.out with frame := some s.ppu.fb } }

def State.withMode (s : State) (m : PpuMode) : State := { s with ppu := { s.ppu with mode := m } }

/-- The tick at which `dot` reaches 456 (R246): the next line begins. -/
def lineEnd (s : State) : State :=
  let s := compareLyc
    { s with ppu := { s.ppu with dot := 0, ly := if s.ppu.ly = 153#8 then 0 else s.ppu.ly + 1 } }
  if s.ppu.ly = 144#8 then
    snapshot (((s.withMode .vBlank).raise 0).raiseIf (s.ppu.statEn.getLsbD 1) 1)
  else if s.ppu.ly.toNat < 144 then (s.withMode .oamScan).raiseIf (s.ppu.statEn.getLsbD 2) 1
  else s

/-- The tick at which `dot` reaches 80 on a visible line (R246): OAM scan, mode 3, the line is drawn. -/
def transferStart (s : State) : State :=
  renderLine ({ s with ppu := { s.ppu with sel := s.oamSelect } }.withMode .transfer)

/-- The tick at which `dot` reaches 252 on a visible line (R246): mode 0. -/
def hBlankStart (s : State) : State := (s.withMode .hBlank).raiseIf (s.ppu.statEn.getLsbD 0) 1

/-- One tick of the PPU (R246); nothing while the display is off (R247). -/
def tick (s : State) : State :=
  if s.ppu.lcdc.getLsbD 7 then
    let s := { s with ppu := { s.ppu with dot := s.ppu.dot + 1 } }
    if s.ppu.dot = 456 then lineEnd s
    else if s.ppu.ly.toNat < 144 ∧ s.ppu.dot = 80 then transferStart s
    else if s.ppu.ly.toNat < 144 ∧ s.ppu.dot = 252 then hBlankStart s
    else s
  else s

/-- `advance(n)` (R246). -/
def advance (n : Nat) (s : State) : State :=
  match n with
  | 0 => s
  | n + 1 => advance n (tick s)

/-- A write of `v` to LCDC (R35, R247). -/
def Ppu.writeLcdc (p : Ppu) (v : Byte) : Ppu :=
  if p.lcdc.getLsbD 7 = v.getLsbD 7 then { p with lcdc := v }
  else
    { p with
      lcdc := v, ly := 0, dot := 0
      mode := if v.getLsbD 7 then .oamScan else .hBlank
      lycEq := decide (p.lyc = 0) }

/-- A write of `v` to LYC (R39, R249): compares, raises nothing. -/
def Ppu.writeLyc (p : Ppu) (v : Byte) : Ppu := { p with lyc := v, lycEq := decide (p.ly = v) }

end Sys2Proof.Machine
end

