-- ==== Sys2Proof/Machine/Ops.lean ====
section
/-! DEFINITION. The named operations over registers, memory and the stack, taking an interrupt and
returning from one (10_state, 20_memory, 40_load R100 and R101, 60_exceptions R223 to R229). -/

namespace Sys2Proof.Machine

/-- The outcome of a step or of a part of one. -/
abbrev Outcome := Host.Outcome State Fault Refusal

/-- Go on from a next state; a fault or a refusal ends the step. -/
def andThen (o : Outcome) (k : State → Outcome) : Outcome :=
  match o with
  | .next s => k s
  | .fault r => .fault r
  | .refused r => .refused r

/-! ### Registers -/

/-- `x[r]` for an 8-bit operand register (R11, R83). -/
def State.reg (s : State) (r : Reg8) : Byte :=
  match r with
  | .b => s.regs.b
  | .c => s.regs.c
  | .d => s.regs.d
  | .e => s.regs.e
  | .h => s.regs.h
  | .l => s.regs.l
  | .a => s.regs.a

/-- `x[r] <- v` (R11, R22). -/
def Regs.set (g : Regs) (r : Reg8) (v : Byte) : Regs :=
  match r with
  | .b => { g with b := v }
  | .c => { g with c := v }
  | .d => { g with d := v }
  | .e => { g with e := v }
  | .h => { g with h := v }
  | .l => { g with l := v }
  | .a => { g with a := v }

def State.setReg (s : State) (r : Reg8) (v : Byte) : State := { s with regs := s.regs.set r v }

/-- The views BC, DE, HL (R21). -/
def State.bc (s : State) : Word := joinBytes s.regs.b s.regs.c
def State.de (s : State) : Word := joinBytes s.regs.d s.regs.e
def State.hl (s : State) : Word := joinBytes s.regs.h s.regs.l

/-- The view AF (R21). -/
def State.af (s : State) : Word := joinBytes s.regs.a s.regs.f

/-- `x[rr]` for an r16 operand (R84). -/
def State.reg16 (s : State) (rr : Reg16) : Word :=
  match rr with
  | .bc => s.bc
  | .de => s.de
  | .hl => s.hl
  | .sp => s.sp

/-- `x[rr] <- v` for an r16 operand (R22). -/
def State.setReg16 (s : State) (rr : Reg16) (v : Word) : State :=
  match rr with
  | .bc => { s with regs := { s.regs with b := hiByte v, c := loByte v } }
  | .de => { s with regs := { s.regs with d := hiByte v, e := loByte v } }
  | .hl => { s with regs := { s.regs with h := hiByte v, l := loByte v } }
  | .sp => { s with sp := v }

/-- `x[rr]` for an r16stk operand (R85). -/
def State.stkReg (s : State) (rr : StkReg) : Word :=
  match rr with
  | .bc => s.bc
  | .de => s.de
  | .hl => s.hl
  | .af => s.af

/-- `x[rr] <- v` for an r16stk operand; a write to F keeps its low nibble 0 (R22, R24). -/
def State.setStkReg (s : State) (rr : StkReg) (v : Word) : State :=
  match rr with
  | .bc => s.setReg16 .bc v
  | .de => s.setReg16 .de v
  | .hl => s.setReg16 .hl v
  | .af => { s with regs := { s.regs with a := hiByte v, f := loByte v &&& 0xF0#8 } }

/-- The four flags (R25). -/
def State.flags (s : State) : Flags := Flags.ofByte s.regs.f

/-- Write all four flags (R25); a flag to keep is written with its value. -/
def State.setFlags (s : State) (g : Flags) : State := { s with regs := { s.regs with f := g.toByte } }

/-- The step's cycle count (R16). -/
def State.cost (s : State) (n : Nat) : State := { s with out := { s.out with cycles := n } }

/-! ### The address space -/

/-- The rows of the dispatcher's table (R51). -/
inductive Region where
  | romFixed
  | romSwitch
  | videoRam
  | extRam
  | workRam
  | echo
  | oam
  | reserved
  | io
  | highRam
  | intEnable
  deriving DecidableEq, Repr

/-- The row that an address selects (R51). -/
def regionOf (a : Word) : Region :=
  if a.toNat < 0x4000 then .romFixed
  else if a.toNat < 0x8000 then .romSwitch
  else if a.toNat < 0xA000 then .videoRam
  else if a.toNat < 0xC000 then .extRam
  else if a.toNat < 0xE000 then .workRam
  else if a.toNat < 0xFE00 then .echo
  else if a.toNat < 0xFEA0 then .oam
  else if a.toNat < 0xFF00 then .reserved
  else if a.toNat < 0xFF80 then .io
  else if a.toNat < 0xFFFF then .highRam
  else .intEnable

/-- The registers of the I/O window (R59). -/
inductive IoReg where
  | ext
  | ifr
  | audio
  | lcdc
  | stat
  | scy
  | scx
  | ly
  | lyc
  | dma
  | bgp
  | obp0
  | obp1
  | wy
  | wx
  | boot
  | unused
  deriving DecidableEq, Repr

/-- 0xFF00, 0xFF01, 0xFF02 and 0xFF04..0xFF07 (R60). -/
def isExtAddr (n : Nat) : Bool :=
  decide (n = 0xFF00 ∨ n = 0xFF01 ∨ n = 0xFF02 ∨ (0xFF04 ≤ n ∧ n ≤ 0xFF07))

/-- 0xFF10..0xFF14, 0xFF16..0xFF1E, 0xFF20..0xFF26 and 0xFF30..0xFF3F (R61). -/
def isAudioAddr (n : Nat) : Bool :=
  decide ((0xFF10 ≤ n ∧ n ≤ 0xFF14) ∨ (0xFF16 ≤ n ∧ n ≤ 0xFF1E) ∨ (0xFF20 ≤ n ∧ n ≤ 0xFF26) ∨
    (0xFF30 ≤ n ∧ n ≤ 0xFF3F))

/-- The register at an address of the I/O window (R59, R68). -/
def ioRegOf (a : Word) : IoReg :=
  let n := a.toNat
  if isExtAddr n then .ext
  else if n = 0xFF0F then .ifr
  else if isAudioAddr n then .audio
  else if n = 0xFF40 then .lcdc
  else if n = 0xFF41 then .stat
  else if n = 0xFF42 then .scy
  else if n = 0xFF43 then .scx
  else if n = 0xFF44 then .ly
  else if n = 0xFF45 then .lyc
  else if n = 0xFF46 then .dma
  else if n = 0xFF47 then .bgp
  else if n = 0xFF48 then .obp0
  else if n = 0xFF49 then .obp1
  else if n = 0xFF4A then .wy
  else if n = 0xFF4B then .wx
  else if n = 0xFF50 then .boot
  else .unused

/-- A byte of the boot image (R57). -/
def State.bootByte (s : State) (i : Nat) : Byte := readCells unlistedRom s.boot i

/-- The byte a read of the I/O register at `a` gives (R59). -/
def State.readIo (s : State) (a : Word) : Byte :=
  match ioRegOf a with
  | .ext => Config.extAnswer s.extHistory a
  | .ifr => 0b111#3 ++ s.irq.ifr
  | .audio => readCells unlistedByte s.aud a.toNat
  | .lcdc => s.ppu.lcdc
  | .stat => s.ppu.stat
  | .scy => s.ppu.scy
  | .scx => s.ppu.scx
  | .ly => s.ppu.ly
  | .lyc => s.ppu.lyc
  | .dma =>
    match s.params.dma with
    | .refuse => 0xFF
    | .instant => s.ppu.dma
  | .bgp => s.ppu.bgp
  | .obp0 => s.ppu.obp0
  | .obp1 => s.ppu.obp1
  | .wy => s.ppu.wy
  | .wx => s.ppu.wx
  | .boot => 0xFF
  | .unused => 0xFF

/-- The byte the dispatcher gives for `a` (R51 to R58, R67). -/
def State.readByte (s : State) (a : Word) : Byte :=
  match regionOf a with
  | .romFixed =>
    if s.bootMapped && decide (a.toNat < 0x100) then s.bootByte a.toNat
    else s.cart.byte (s.bank0000 * 0x4000 + a.toNat)
  | .romSwitch => s.cart.byte (s.bank4000 * 0x4000 + (a.toNat - 0x4000))
  | .videoRam => s.ram a.toNat
  | .extRam => if s.extRamOpen then s.ram (s.extRamKey a) else 0xFF
  | .workRam => s.ram a.toNat
  | .echo => s.ram (a.toNat - 0x2000)
  | .oam => s.ram a.toNat
  | .reserved => 0xFF
  | .io => s.readIo a
  | .highRam => s.ram a.toNat
  | .intEnable => s.irq.ie

/-- What a read of `a` leaves behind (R69): a report at an unmapped address (R55, R58, R68), an entry of
the oracle's history at an external device register (R60), and nothing anywhere else. -/
def State.noteRead (s : State) (a : Word) : State :=
  match regionOf a with
  | .extRam => if s.extRamOpen then s else s.report [.unmappedRead a]
  | .reserved => s.report [.unmappedRead a]
  | .io =>
    match ioRegOf a with
    | .ext => { s with extHistory := s.extHistory ++ [.read a] }
    | .unused => s.report [.unmappedRead a]
    | _ => s
  | _ => s

/-- `MemRead(a, 1)` (R12): the byte and the state after the access. -/
def memRead (a : Word) (s : State) : Byte × State := (s.readByte a, s.noteRead a)

/-- Store a byte of RAM at a key (R44). -/
def State.putRam (s : State) (k : Nat) (v : Byte) : State :=
  { s with mem := writeCells unlistedByte s.mem k v }

/-- The instant DMA of R62 from page `page`: bytes `i`, `i + 1`, … up to `n` of them, in order. -/
def dmaCopy (page : Byte) (i n : Nat) (s : State) : State :=
  match n with
  | 0 => s
  | n + 1 =>
    let (v, s) := memRead (joinBytes page 0#8 + BitVec.ofNat 16 i) s
    dmaCopy page (i + 1) n (s.putRam (0xFE00 + i) v)

/-- A write to the I/O register at `a` (R59 to R62, R68). -/
def writeIo (a : Word) (v : Byte) (s : State) : Outcome :=
  match ioRegOf a with
  | .ext => .next { s with extHistory := s.extHistory ++ [.write a v] }
  | .ifr => .next { s with irq := { s.irq with ifr := v.extractLsb' 0 5 } }
  | .audio => .next { s with aud := writeCells unlistedByte s.aud a.toNat v }
  | .lcdc => .next { s with ppu := s.ppu.writeLcdc v }
  | .stat => .next { s with ppu := { s.ppu with statEn := v.extractLsb' 3 4 } }
  | .scy => .next { s with ppu := { s.ppu with scy := v } }
  | .scx => .next { s with ppu := { s.ppu with scx := v } }
  | .ly => .next s
  | .lyc => .next { s with ppu := s.ppu.writeLyc v }
  | .dma =>
    match s.params.dma with
    | .refuse => .refused .dmaUnmodelled
    | .instant => .next (dmaCopy v 0 160 { s with ppu := { s.ppu with dma := v } })
  | .bgp => .next { s with ppu := { s.ppu with bgp := v } }
  | .obp0 => .next { s with ppu := { s.ppu with obp0 := v } }
  | .obp1 => .next { s with ppu := { s.ppu with obp1 := v } }
  | .wy => .next { s with ppu := { s.ppu with wy := v } }
  | .wx => .next { s with ppu := { s.ppu with wx := v } }
  | .boot => .next (if v = 0#8 then s else { s with bootMapped := false })
  | .unused => .next (s.report [.unmappedWrite a])

/-- `MemWrite(a, 1, v)` (R12, R51 to R58, R63, R67). -/
def memWrite (a : Word) (v : Byte) (s : State) : Outcome :=
  match regionOf a with
  | .romFixed => .next (mapperWrite a v s)
  | .romSwitch => .next (mapperWrite a v s)
  | .videoRam => .next (s.putRam a.toNat v)
  | .extRam => .next (if s.extRamOpen then s.putRam (s.extRamKey a) v else s.report [.unmappedWrite a])
  | .workRam => .next (s.putRam a.toNat v)
  | .echo => .next (s.putRam (a.toNat - 0x2000) v)
  | .oam => .next (s.putRam a.toNat v)
  | .reserved => .next (s.report [.unmappedWrite a])
  | .io => writeIo a v s
  | .highRam => .next (s.putRam a.toNat v)
  | .intEnable => .next { s with irq := { s.irq with ie := v } }

/-! ### Fetch -/

/-- `FetchByte()` (R14); with `hb_pending` the byte is read without moving `pc` (R232). -/
def fetchByte (s : State) : Byte × State :=
  let (b, t) := memRead s.pc s
  if s.irq.hbPending then (b, { t with irq := { t.irq with hbPending := false } })
  else (b, { t with pc := s.pc + 1 })

/-! ### The stack -/

/-- `Push16(v)` (R100). -/
def push16 (v : Word) (s : State) : Outcome :=
  andThen (memWrite (s.sp - 1) (hiByte v) { s with sp := s.sp - 1 }) fun s =>
    memWrite (s.sp - 1) (loByte v) { s with sp := s.sp - 1 }

/-- `Pop16()` (R101). -/
def pop16 (s : State) : Word × State :=
  let (lo, s) := memRead s.sp s
  let s := { s with sp := s.sp + 1 }
  let (hi, s) := memRead s.sp s
  (joinBytes hi lo, { s with sp := s.sp + 1 })

/-! ### Interrupts -/

/-- `IE[4:0] & IF[4:0]` (R220, R221). -/
def State.pending (s : State) : BitVec 5 := s.irq.ie.extractLsb' 0 5 &&& s.irq.ifr

/-- The lowest set bit of a request mask (R223, R237): the highest priority. -/
def lowestBit (m : BitVec 5) : Option (Fin 5) := (List.finRange 5).find? (fun i => m.getLsbD i.val)

/-- `pendingInterrupt()` (R223). -/
def State.pendingInterrupt (s : State) : Option (Fin 5) := lowestBit s.pending

/-- `acknowledge(i)` (R224). -/
def State.acknowledge (s : State) (i : Nat) : State :=
  { s with irq := { s.irq with ifr := s.irq.ifr &&& ~~~(1#5 <<< i) } }

/-- `setMasterEnable(b)` (R225). -/
def State.setMasterEnable (s : State) (b : Bool) : State :=
  { s with irq := { s.irq with ime := b, eiDelay := 0 } }

/-- `requestDelayedEnable()` (R226, R214). -/
def State.requestDelayedEnable (s : State) : State :=
  if s.irq.ime = false ∧ s.irq.eiDelay = 0 then { s with irq := { s.irq with eiDelay := 2 } } else s

/-- The vector of source `i` (R221, R228): `0x0040 + 8 * i`. -/
def vectorOf (i : Fin 5) : Word := 0x0040#16 + 8#16 * BitVec.ofNat 16 i.val

/-- Taking an interrupt (R228): the source is chosen, `pc` is pushed (the address of the HALT itself when
the halt bug is pending, R232), IME and the request bit are cleared, `pc` becomes the vector. 20 cycles
(R233). With no source pending there is nothing to take. -/
def service (s : State) : Outcome :=
  match s.pendingInterrupt with
  | none => .next s
  | some i =>
    let ret := if s.irq.hbPending then s.pc - 1 else s.pc
    andThen (push16 ret { s with irq := { s.irq with hbPending := false } }) fun s =>
      let s := { s with irq := { s.irq with ime := false } }.acknowledge i.val
      .next ({ s with pc := vectorOf i }.cost 20)

/-- Returning from an interrupt (R200, R239): `pc <- Pop16(); IME <- 1; ei_delay <- 0`. -/
def returnFromInterrupt (s : State) : State :=
  let (t, s) := pop16 s
  { s with pc := t }.setMasterEnable true

/-- `ei_countdown()` (R229). -/
def eiCountdown (s : State) : State :=
  match s.irq.eiDelay with
  | 0 => s
  | 1 => { s with irq := { s.irq with eiDelay := 0, ime := true } }
  | n + 2 => { s with irq := { s.irq with eiDelay := n + 1 } }

/-- The environment's requests at the start of a system step (R5, R241): the next set of `env` is
raised; an exhausted list stands for the empty set for ever. -/
def applyRequests (s : State) : State :=
  match s.env with
  | [] => s
  | e :: r => ((({ s with env := r }.raiseIf e.timer 2).raiseIf e.serial 3).raiseIf e.joypad 4)

/-- The step's return values are empty at its start (R6). -/
def clearOut (s : State) : State := { s with out := StepOut.none }

end Sys2Proof.Machine
end

