-- ==== Sys2Proof/Machine/Operands.lean ====
section
/-! DEFINITION. Operand access: r8 operands with the (HL) form (30_encoding R83), conditions (R86,
44_control R190) and relative targets (R194). -/

namespace Sys2Proof.Machine

/-- `Get8` (R83): the operand's value and the state after the access. -/
def get8 (r : Operand8) (s : State) : Byte × State :=
  match r with
  | .reg r => (s.reg r, s)
  | .atHL => memRead s.hl s

/-- `Set8` (R83). -/
def set8 (r : Operand8) (v : Byte) (s : State) : Outcome :=
  match r with
  | .reg r => .next (s.setReg r v)
  | .atHL => memWrite s.hl v s

/-- One of two cycle counts: for a register operand or for (HL). -/
def costOf (r : Operand8) (reg mem : Nat) : Nat :=
  match r with
  | .reg _ => reg
  | .atHL => mem

/-- `cond(cc)` (R86, R190). -/
def condHolds (cc : Cond) (g : Flags) : Bool :=
  match cc with
  | .nz => !g.z
  | .z => g.z
  | .nc => !g.c
  | .c => g.c

/-- `pc + sext_16(e8)` with `pc` after the operand (R194). -/
def relTarget (pc : Word) (e : Byte) : Word := pc + sext16 e

end Sys2Proof.Machine
end

