-- ==== Sys2Proof/Machine/Alu16.lean ====
section
/-! DEFINITION. 16-bit arithmetic (42_alu16): the shared operations, then one meaning per row. -/

namespace Sys2Proof.Machine

/-- INC r16 (R160). -/
def incPair (rr : Reg16) (s : State) : Outcome := .next ((s.setReg16 rr (s.reg16 rr + 1)).cost 8)

/-- DEC r16 (R161). -/
def decPair (rr : Reg16) (s : State) : Outcome := .next ((s.setReg16 rr (s.reg16 rr - 1)).cost 8)

/-- ADD HL,r16 (R162). -/
def addHlPair (rr : Reg16) (s : State) : Outcome :=
  let (r, g) := addHl16 s.hl (s.reg16 rr) s.flags
  .next (((s.setReg16 .hl r).setFlags g).cost 8)

/-- ADD SP,e8 (R163). -/
def addSpOffset (e : Byte) (s : State) : Outcome :=
  let (r, g) := addSpE8 s.sp e
  .next (((s.setReg16 .sp r).setFlags g).cost 16)

/-- LD HL,SP+e8 (R164). -/
def hlFromSpOffset (e : Byte) (s : State) : Outcome :=
  let (r, g) := addSpE8 s.sp e
  .next (((s.setReg16 .hl r).setFlags g).cost 12)

/-! R160 -/

/-- `INC BC` -/
def exec_inc_BC (s : State) : Outcome := incPair .bc s

/-! R162 -/

/-- `ADD HL,BC` -/
def exec_add_HL_BC (s : State) : Outcome := addHlPair .bc s

/-! R161 -/

/-- `DEC BC` -/
def exec_dec_BC (s : State) : Outcome := decPair .bc s

/-! R160 -/

/-- `INC DE` -/
def exec_inc_DE (s : State) : Outcome := incPair .de s

/-! R162 -/

/-- `ADD HL,DE` -/
def exec_add_HL_DE (s : State) : Outcome := addHlPair .de s

/-! R161 -/

/-- `DEC DE` -/
def exec_dec_DE (s : State) : Outcome := decPair .de s

/-! R160 -/

/-- `INC HL` -/
def exec_inc_HL (s : State) : Outcome := incPair .hl s

/-! R162 -/

/-- `ADD HL,HL` -/
def exec_add_HL_HL (s : State) : Outcome := addHlPair .hl s

/-! R161 -/

/-- `DEC HL` -/
def exec_dec_HL (s : State) : Outcome := decPair .hl s

/-! R160 -/

/-- `INC SP` -/
def exec_inc_SP (s : State) : Outcome := incPair .sp s

/-! R162 -/

/-- `ADD HL,SP` -/
def exec_add_HL_SP (s : State) : Outcome := addHlPair .sp s

/-! R161 -/

/-- `DEC SP` -/
def exec_dec_SP (s : State) : Outcome := decPair .sp s

/-! R163 -/

/-- `ADD SP,e8` -/
def exec_add_SP_e8 (e : Byte) (s : State) : Outcome := addSpOffset e s

/-! R164 -/

/-- `LD HL,SP+e8` -/
def exec_ld_HL_SPe8 (e : Byte) (s : State) : Outcome := hlFromSpOffset e s

end Sys2Proof.Machine
end

