-- ==== Sys2Proof/Machine/Alu8.lean ====
section
/-! DEFINITION. 8-bit arithmetic and logic (41_alu8): the shared operations, then one meaning per row. -/

namespace Sys2Proof.Machine

/-- An ALU operation of A with `v` (R130, R135 to R142). -/
def aluApply (op : Alu) (v : Byte) (s : State) : State :=
  let (r, g) := alu8 op (s.reg .a) v s.flags.c
  (if aluWritesA op then s.setReg .a r else s).setFlags g

/-- `alu A,r8` (R130). -/
def aluOperand (op : Alu) (r : Operand8) (s : State) : Outcome :=
  let (v, s) := get8 r s
  .next ((aluApply op v s).cost (costOf r 4 8))

/-- `alu A,n8` (R130). -/
def aluImm (op : Alu) (n : Byte) (s : State) : Outcome := .next ((aluApply op n s).cost 8)

/-- INC r8 (R143): one read, then one write. -/
def incOperand (r : Operand8) (s : State) : Outcome :=
  let (v, s) := get8 r s
  let (w, g) := inc8 v s.flags
  andThen (set8 r w s) fun s => .next ((s.setFlags g).cost (costOf r 4 12))

/-- DEC r8 (R144): one read, then one write. -/
def decOperand (r : Operand8) (s : State) : Outcome :=
  let (v, s) := get8 r s
  let (w, g) := dec8 v s.flags
  andThen (set8 r w s) fun s => .next ((s.setFlags g).cost (costOf r 4 12))

/-- DAA (R145). -/
def decimalAdjust (s : State) : Outcome :=
  let (r, g) := daa8 (s.reg .a) s.flags
  .next (((s.setReg .a r).setFlags g).cost 4)

/-- CPL (R146). -/
def complementA (s : State) : Outcome :=
  .next (((s.setReg .a (~~~s.reg .a)).setFlags { s.flags with n := true, h := true }).cost 4)

/-- SCF (R147). -/
def setCarry (s : State) : Outcome :=
  .next ((s.setFlags { s.flags with n := false, h := false, c := true }).cost 4)

/-- CCF (R148). -/
def complementCarry (s : State) : Outcome :=
  .next ((s.setFlags { s.flags with n := false, h := false, c := !s.flags.c }).cost 4)

/-! R143 -/

/-- `INC B` -/
def exec_inc_B (s : State) : Outcome := incOperand (.reg .b) s

/-! R144 -/

/-- `DEC B` -/
def exec_dec_B (s : State) : Outcome := decOperand (.reg .b) s

/-! R143 -/

/-- `INC C` -/
def exec_inc_C (s : State) : Outcome := incOperand (.reg .c) s

/-! R144 -/

/-- `DEC C` -/
def exec_dec_C (s : State) : Outcome := decOperand (.reg .c) s

/-! R143 -/

/-- `INC D` -/
def exec_inc_D (s : State) : Outcome := incOperand (.reg .d) s

/-! R144 -/

/-- `DEC D` -/
def exec_dec_D (s : State) : Outcome := decOperand (.reg .d) s

/-! R143 -/

/-- `INC E` -/
def exec_inc_E (s : State) : Outcome := incOperand (.reg .e) s

/-! R144 -/

/-- `DEC E` -/
def exec_dec_E (s : State) : Outcome := decOperand (.reg .e) s

/-! R143 -/

/-- `INC H` -/
def exec_inc_H (s : State) : Outcome := incOperand (.reg .h) s

/-! R144 -/

/-- `DEC H` -/
def exec_dec_H (s : State) : Outcome := decOperand (.reg .h) s

/-! R145 -/

/-- `DAA` -/
def exec_daa (s : State) : Outcome := decimalAdjust s

/-! R143 -/

/-- `INC L` -/
def exec_inc_L (s : State) : Outcome := incOperand (.reg .l) s

/-! R144 -/

/-- `DEC L` -/
def exec_dec_L (s : State) : Outcome := decOperand (.reg .l) s

/-! R146 -/

/-- `CPL` -/
def exec_cpl (s : State) : Outcome := complementA s

/-! R143 -/

/-- `INC (HL)` -/
def exec_inc_atHL (s : State) : Outcome := incOperand .atHL s

/-! R144 -/

/-- `DEC (HL)` -/
def exec_dec_atHL (s : State) : Outcome := decOperand .atHL s

/-! R147 -/

/-- `SCF` -/
def exec_scf (s : State) : Outcome := setCarry s

/-! R143 -/

/-- `INC A` -/
def exec_inc_A (s : State) : Outcome := incOperand (.reg .a) s

/-! R144 -/

/-- `DEC A` -/
def exec_dec_A (s : State) : Outcome := decOperand (.reg .a) s

/-! R148 -/

/-- `CCF` -/
def exec_ccf (s : State) : Outcome := complementCarry s

/-! R135 -/

/-- `ADD A,B` -/
def exec_add_A_B (s : State) : Outcome := aluOperand .add (.reg .b) s

/-- `ADD A,C` -/
def exec_add_A_C (s : State) : Outcome := aluOperand .add (.reg .c) s

/-- `ADD A,D` -/
def exec_add_A_D (s : State) : Outcome := aluOperand .add (.reg .d) s

/-- `ADD A,E` -/
def exec_add_A_E (s : State) : Outcome := aluOperand .add (.reg .e) s

/-- `ADD A,H` -/
def exec_add_A_H (s : State) : Outcome := aluOperand .add (.reg .h) s

/-- `ADD A,L` -/
def exec_add_A_L (s : State) : Outcome := aluOperand .add (.reg .l) s

/-- `ADD A,(HL)` -/
def exec_add_A_atHL (s : State) : Outcome := aluOperand .add .atHL s

/-- `ADD A,A` -/
def exec_add_A_A (s : State) : Outcome := aluOperand .add (.reg .a) s

/-! R136 -/

/-- `ADC A,B` -/
def exec_adc_A_B (s : State) : Outcome := aluOperand .adc (.reg .b) s

/-- `ADC A,C` -/
def exec_adc_A_C (s : State) : Outcome := aluOperand .adc (.reg .c) s

/-- `ADC A,D` -/
def exec_adc_A_D (s : State) : Outcome := aluOperand .adc (.reg .d) s

/-- `ADC A,E` -/
def exec_adc_A_E (s : State) : Outcome := aluOperand .adc (.reg .e) s

/-- `ADC A,H` -/
def exec_adc_A_H (s : State) : Outcome := aluOperand .adc (.reg .h) s

/-- `ADC A,L` -/
def exec_adc_A_L (s : State) : Outcome := aluOperand .adc (.reg .l) s

/-- `ADC A,(HL)` -/
def exec_adc_A_atHL (s : State) : Outcome := aluOperand .adc .atHL s

/-- `ADC A,A` -/
def exec_adc_A_A (s : State) : Outcome := aluOperand .adc (.reg .a) s

/-! R137 -/

/-- `SUB A,B` -/
def exec_sub_A_B (s : State) : Outcome := aluOperand .sub (.reg .b) s

/-- `SUB A,C` -/
def exec_sub_A_C (s : State) : Outcome := aluOperand .sub (.reg .c) s

/-- `SUB A,D` -/
def exec_sub_A_D (s : State) : Outcome := aluOperand .sub (.reg .d) s

/-- `SUB A,E` -/
def exec_sub_A_E (s : State) : Outcome := aluOperand .sub (.reg .e) s

/-- `SUB A,H` -/
def exec_sub_A_H (s : State) : Outcome := aluOperand .sub (.reg .h) s

/-- `SUB A,L` -/
def exec_sub_A_L (s : State) : Outcome := aluOperand .sub (.reg .l) s

/-- `SUB A,(HL)` -/
def exec_sub_A_atHL (s : State) : Outcome := aluOperand .sub .atHL s

/-- `SUB A,A` -/
def exec_sub_A_A (s : State) : Outcome := aluOperand .sub (.reg .a) s

/-! R138 -/

/-- `SBC A,B` -/
def exec_sbc_A_B (s : State) : Outcome := aluOperand .sbc (.reg .b) s

/-- `SBC A,C` -/
def exec_sbc_A_C (s : State) : Outcome := aluOperand .sbc (.reg .c) s

/-- `SBC A,D` -/
def exec_sbc_A_D (s : State) : Outcome := aluOperand .sbc (.reg .d) s

/-- `SBC A,E` -/
def exec_sbc_A_E (s : State) : Outcome := aluOperand .sbc (.reg .e) s

/-- `SBC A,H` -/
def exec_sbc_A_H (s : State) : Outcome := aluOperand .sbc (.reg .h) s

/-- `SBC A,L` -/
def exec_sbc_A_L (s : State) : Outcome := aluOperand .sbc (.reg .l) s

/-- `SBC A,(HL)` -/
def exec_sbc_A_atHL (s : State) : Outcome := aluOperand .sbc .atHL s

/-- `SBC A,A` -/
def exec_sbc_A_A (s : State) : Outcome := aluOperand .sbc (.reg .a) s

/-! R139 -/

/-- `AND A,B` -/
def exec_and_A_B (s : State) : Outcome := aluOperand .and (.reg .b) s

/-- `AND A,C` -/
def exec_and_A_C (s : State) : Outcome := aluOperand .and (.reg .c) s

/-- `AND A,D` -/
def exec_and_A_D (s : State) : Outcome := aluOperand .and (.reg .d) s

/-- `AND A,E` -/
def exec_and_A_E (s : State) : Outcome := aluOperand .and (.reg .e) s

/-- `AND A,H` -/
def exec_and_A_H (s : State) : Outcome := aluOperand .and (.reg .h) s

/-- `AND A,L` -/
def exec_and_A_L (s : State) : Outcome := aluOperand .and (.reg .l) s

/-- `AND A,(HL)` -/
def exec_and_A_atHL (s : State) : Outcome := aluOperand .and .atHL s

/-- `AND A,A` -/
def exec_and_A_A (s : State) : Outcome := aluOperand .and (.reg .a) s

/-! R140 -/

/-- `XOR A,B` -/
def exec_xor_A_B (s : State) : Outcome := aluOperand .xor (.reg .b) s

/-- `XOR A,C` -/
def exec_xor_A_C (s : State) : Outcome := aluOperand .xor (.reg .c) s

/-- `XOR A,D` -/
def exec_xor_A_D (s : State) : Outcome := aluOperand .xor (.reg .d) s

/-- `XOR A,E` -/
def exec_xor_A_E (s : State) : Outcome := aluOperand .xor (.reg .e) s

/-- `XOR A,H` -/
def exec_xor_A_H (s : State) : Outcome := aluOperand .xor (.reg .h) s

/-- `XOR A,L` -/
def exec_xor_A_L (s : State) : Outcome := aluOperand .xor (.reg .l) s

/-- `XOR A,(HL)` -/
def exec_xor_A_atHL (s : State) : Outcome := aluOperand .xor .atHL s

/-- `XOR A,A` -/
def exec_xor_A_A (s : State) : Outcome := aluOperand .xor (.reg .a) s

/-! R141 -/

/-- `OR A,B` -/
def exec_or_A_B (s : State) : Outcome := aluOperand .or (.reg .b) s

/-- `OR A,C` -/
def exec_or_A_C (s : State) : Outcome := aluOperand .or (.reg .c) s

/-- `OR A,D` -/
def exec_or_A_D (s : State) : Outcome := aluOperand .or (.reg .d) s

/-- `OR A,E` -/
def exec_or_A_E (s : State) : Outcome := aluOperand .or (.reg .e) s

/-- `OR A,H` -/
def exec_or_A_H (s : State) : Outcome := aluOperand .or (.reg .h) s

/-- `OR A,L` -/
def exec_or_A_L (s : State) : Outcome := aluOperand .or (.reg .l) s

/-- `OR A,(HL)` -/
def exec_or_A_atHL (s : State) : Outcome := aluOperand .or .atHL s

/-- `OR A,A` -/
def exec_or_A_A (s : State) : Outcome := aluOperand .or (.reg .a) s

/-! R142 -/

/-- `CP A,B` -/
def exec_cp_A_B (s : State) : Outcome := aluOperand .cp (.reg .b) s

/-- `CP A,C` -/
def exec_cp_A_C (s : State) : Outcome := aluOperand .cp (.reg .c) s

/-- `CP A,D` -/
def exec_cp_A_D (s : State) : Outcome := aluOperand .cp (.reg .d) s

/-- `CP A,E` -/
def exec_cp_A_E (s : State) : Outcome := aluOperand .cp (.reg .e) s

/-- `CP A,H` -/
def exec_cp_A_H (s : State) : Outcome := aluOperand .cp (.reg .h) s

/-- `CP A,L` -/
def exec_cp_A_L (s : State) : Outcome := aluOperand .cp (.reg .l) s

/-- `CP A,(HL)` -/
def exec_cp_A_atHL (s : State) : Outcome := aluOperand .cp .atHL s

/-- `CP A,A` -/
def exec_cp_A_A (s : State) : Outcome := aluOperand .cp (.reg .a) s

/-! R135 -/

/-- `ADD A,n8` -/
def exec_add_A_n8 (n : Byte) (s : State) : Outcome := aluImm .add n s

/-! R136 -/

/-- `ADC A,n8` -/
def exec_adc_A_n8 (n : Byte) (s : State) : Outcome := aluImm .adc n s

/-! R137 -/

/-- `SUB A,n8` -/
def exec_sub_A_n8 (n : Byte) (s : State) : Outcome := aluImm .sub n s

/-! R138 -/

/-- `SBC A,n8` -/
def exec_sbc_A_n8 (n : Byte) (s : State) : Outcome := aluImm .sbc n s

/-! R139 -/

/-- `AND A,n8` -/
def exec_and_A_n8 (n : Byte) (s : State) : Outcome := aluImm .and n s

/-! R140 -/

/-- `XOR A,n8` -/
def exec_xor_A_n8 (n : Byte) (s : State) : Outcome := aluImm .xor n s

/-! R141 -/

/-- `OR A,n8` -/
def exec_or_A_n8 (n : Byte) (s : State) : Outcome := aluImm .or n s

/-! R142 -/

/-- `CP A,n8` -/
def exec_cp_A_n8 (n : Byte) (s : State) : Outcome := aluImm .cp n s

end Sys2Proof.Machine
end

