-- ==== Sys2Proof/Machine/BitOps.lean ====
section
/-! DEFINITION. Rotates, shifts and bit operations (43_bitops): the shared operations, then one meaning
per row. -/

namespace Sys2Proof.Machine

/-- RLCA, RRCA, RLA, RRA (R170 to R173). -/
def rotateA (op : Rot) (s : State) : Outcome :=
  let (r, g) := rotA8 op (s.reg .a) s.flags.c
  .next (((s.setReg .a r).setFlags g).cost 4)

/-- A prefixed rotate or shift (R174 to R181): one read, then one write. -/
def rotateOperand (op : Rot) (r : Operand8) (s : State) : Outcome :=
  let (v, s) := get8 r s
  let (w, g) := rot8 op v s.flags.c
  andThen (set8 r w s) fun s => .next ((s.setFlags g).cost (costOf r 8 16))

/-- BIT b,r8 (R182): a read and no write. -/
def testBit (b : Fin 8) (r : Operand8) (s : State) : Outcome :=
  let (v, s) := get8 r s
  .next ((s.setFlags (bitFlags b v s.flags)).cost (costOf r 8 12))

/-- RES b,r8 (R183). -/
def resetBitOf (b : Fin 8) (r : Operand8) (s : State) : Outcome :=
  let (v, s) := get8 r s
  andThen (set8 r (resetBit b v) s) fun s => .next (s.cost (costOf r 8 16))

/-- SET b,r8 (R184). -/
def setBitOf (b : Fin 8) (r : Operand8) (s : State) : Outcome :=
  let (v, s) := get8 r s
  andThen (set8 r (setBit b v) s) fun s => .next (s.cost (costOf r 8 16))

/-- The row PREFIX_CB (R90): the escape byte makes `op` an opcode of the prefixed table, whose
operation it then is (log entry 11). -/
def prefixedRow (op : Byte) (s : State) : Outcome :=
  match fieldX op with
  | 0 => rotateOperand (rotOfCode (fieldY op)) (operand8OfCode (fieldZ op)) s
  | 1 => testBit (fieldY op) (operand8OfCode (fieldZ op)) s
  | 2 => resetBitOf (fieldY op) (operand8OfCode (fieldZ op)) s
  | _ => setBitOf (fieldY op) (operand8OfCode (fieldZ op)) s

/-! R170 -/

/-- `RLCA` -/
def exec_rlca (s : State) : Outcome := rotateA .rlc s

/-! R171 -/

/-- `RRCA` -/
def exec_rrca (s : State) : Outcome := rotateA .rrc s

/-! R172 -/

/-- `RLA` -/
def exec_rla (s : State) : Outcome := rotateA .rl s

/-! R173 -/

/-- `RRA` -/
def exec_rra (s : State) : Outcome := rotateA .rr s

/-! R90 -/

/-- `PREFIX CB` -/
def exec_prefixCB (op : Byte) (s : State) : Outcome := prefixedRow op s

/-! R174 -/

/-- `RLC B` -/
def exec_rlc_B (s : State) : Outcome := rotateOperand .rlc (.reg .b) s

/-- `RLC C` -/
def exec_rlc_C (s : State) : Outcome := rotateOperand .rlc (.reg .c) s

/-- `RLC D` -/
def exec_rlc_D (s : State) : Outcome := rotateOperand .rlc (.reg .d) s

/-- `RLC E` -/
def exec_rlc_E (s : State) : Outcome := rotateOperand .rlc (.reg .e) s

/-- `RLC H` -/
def exec_rlc_H (s : State) : Outcome := rotateOperand .rlc (.reg .h) s

/-- `RLC L` -/
def exec_rlc_L (s : State) : Outcome := rotateOperand .rlc (.reg .l) s

/-- `RLC (HL)` -/
def exec_rlc_atHL (s : State) : Outcome := rotateOperand .rlc .atHL s

/-- `RLC A` -/
def exec_rlc_A (s : State) : Outcome := rotateOperand .rlc (.reg .a) s

/-! R175 -/

/-- `RRC B` -/
def exec_rrc_B (s : State) : Outcome := rotateOperand .rrc (.reg .b) s

/-- `RRC C` -/
def exec_rrc_C (s : State) : Outcome := rotateOperand .rrc (.reg .c) s

/-- `RRC D` -/
def exec_rrc_D (s : State) : Outcome := rotateOperand .rrc (.reg .d) s

/-- `RRC E` -/
def exec_rrc_E (s : State) : Outcome := rotateOperand .rrc (.reg .e) s

/-- `RRC H` -/
def exec_rrc_H (s : State) : Outcome := rotateOperand .rrc (.reg .h) s

/-- `RRC L` -/
def exec_rrc_L (s : State) : Outcome := rotateOperand .rrc (.reg .l) s

/-- `RRC (HL)` -/
def exec_rrc_atHL (s : State) : Outcome := rotateOperand .rrc .atHL s

/-- `RRC A` -/
def exec_rrc_A (s : State) : Outcome := rotateOperand .rrc (.reg .a) s

/-! R176 -/

/-- `RL B` -/
def exec_rl_B (s : State) : Outcome := rotateOperand .rl (.reg .b) s

/-- `RL C` -/
def exec_rl_C (s : State) : Outcome := rotateOperand .rl (.reg .c) s

/-- `RL D` -/
def exec_rl_D (s : State) : Outcome := rotateOperand .rl (.reg .d) s

/-- `RL E` -/
def exec_rl_E (s : State) : Outcome := rotateOperand .rl (.reg .e) s

/-- `RL H` -/
def exec_rl_H (s : State) : Outcome := rotateOperand .rl (.reg .h) s

/-- `RL L` -/
def exec_rl_L (s : State) : Outcome := rotateOperand .rl (.reg .l) s

/-- `RL (HL)` -/
def exec_rl_atHL (s : State) : Outcome := rotateOperand .rl .atHL s

/-- `RL A` -/
def exec_rl_A (s : State) : Outcome := rotateOperand .rl (.reg .a) s

/-! R177 -/

/-- `RR B` -/
def exec_rr_B (s : State) : Outcome := rotateOperand .rr (.reg .b) s

/-- `RR C` -/
def exec_rr_C (s : State) : Outcome := rotateOperand .rr (.reg .c) s

/-- `RR D` -/
def exec_rr_D (s : State) : Outcome := rotateOperand .rr (.reg .d) s

/-- `RR E` -/
def exec_rr_E (s : State) : Outcome := rotateOperand .rr (.reg .e) s

/-- `RR H` -/
def exec_rr_H (s : State) : Outcome := rotateOperand .rr (.reg .h) s

/-- `RR L` -/
def exec_rr_L (s : State) : Outcome := rotateOperand .rr (.reg .l) s

/-- `RR (HL)` -/
def exec_rr_atHL (s : State) : Outcome := rotateOperand .rr .atHL s

/-- `RR A` -/
def exec_rr_A (s : State) : Outcome := rotateOperand .rr (.reg .a) s

/-! R178 -/

/-- `SLA B` -/
def exec_sla_B (s : State) : Outcome := rotateOperand .sla (.reg .b) s

/-- `SLA C` -/
def exec_sla_C (s : State) : Outcome := rotateOperand .sla (.reg .c) s

/-- `SLA D` -/
def exec_sla_D (s : State) : Outcome := rotateOperand .sla (.reg .d) s

/-- `SLA E` -/
def exec_sla_E (s : State) : Outcome := rotateOperand .sla (.reg .e) s

/-- `SLA H` -/
def exec_sla_H (s : State) : Outcome := rotateOperand .sla (.reg .h) s

/-- `SLA L` -/
def exec_sla_L (s : State) : Outcome := rotateOperand .sla (.reg .l) s

/-- `SLA (HL)` -/
def exec_sla_atHL (s : State) : Outcome := rotateOperand .sla .atHL s

/-- `SLA A` -/
def exec_sla_A (s : State) : Outcome := rotateOperand .sla (.reg .a) s

/-! R179 -/

/-- `SRA B` -/
def exec_sra_B (s : State) : Outcome := rotateOperand .sra (.reg .b) s

/-- `SRA C` -/
def exec_sra_C (s : State) : Outcome := rotateOperand .sra (.reg .c) s

/-- `SRA D` -/
def exec_sra_D (s : State) : Outcome := rotateOperand .sra (.reg .d) s

/-- `SRA E` -/
def exec_sra_E (s : State) : Outcome := rotateOperand .sra (.reg .e) s

/-- `SRA H` -/
def exec_sra_H (s : State) : Outcome := rotateOperand .sra (.reg .h) s

/-- `SRA L` -/
def exec_sra_L (s : State) : Outcome := rotateOperand .sra (.reg .l) s

/-- `SRA (HL)` -/
def exec_sra_atHL (s : State) : Outcome := rotateOperand .sra .atHL s

/-- `SRA A` -/
def exec_sra_A (s : State) : Outcome := rotateOperand .sra (.reg .a) s

/-! R180 -/

/-- `SWAP B` -/
def exec_swap_B (s : State) : Outcome := rotateOperand .swap (.reg .b) s

/-- `SWAP C` -/
def exec_swap_C (s : State) : Outcome := rotateOperand .swap (.reg .c) s

/-- `SWAP D` -/
def exec_swap_D (s : State) : Outcome := rotateOperand .swap (.reg .d) s

/-- `SWAP E` -/
def exec_swap_E (s : State) : Outcome := rotateOperand .swap (.reg .e) s

/-- `SWAP H` -/
def exec_swap_H (s : State) : Outcome := rotateOperand .swap (.reg .h) s

/-- `SWAP L` -/
def exec_swap_L (s : State) : Outcome := rotateOperand .swap (.reg .l) s

/-- `SWAP (HL)` -/
def exec_swap_atHL (s : State) : Outcome := rotateOperand .swap .atHL s

/-- `SWAP A` -/
def exec_swap_A (s : State) : Outcome := rotateOperand .swap (.reg .a) s

/-! R181 -/

/-- `SRL B` -/
def exec_srl_B (s : State) : Outcome := rotateOperand .srl (.reg .b) s

/-- `SRL C` -/
def exec_srl_C (s : State) : Outcome := rotateOperand .srl (.reg .c) s

/-- `SRL D` -/
def exec_srl_D (s : State) : Outcome := rotateOperand .srl (.reg .d) s

/-- `SRL E` -/
def exec_srl_E (s : State) : Outcome := rotateOperand .srl (.reg .e) s

/-- `SRL H` -/
def exec_srl_H (s : State) : Outcome := rotateOperand .srl (.reg .h) s

/-- `SRL L` -/
def exec_srl_L (s : State) : Outcome := rotateOperand .srl (.reg .l) s

/-- `SRL (HL)` -/
def exec_srl_atHL (s : State) : Outcome := rotateOperand .srl .atHL s

/-- `SRL A` -/
def exec_srl_A (s : State) : Outcome := rotateOperand .srl (.reg .a) s

/-! R182 -/

/-- `BIT 0,B` -/
def exec_bit_0_B (s : State) : Outcome := testBit 0 (.reg .b) s

/-- `BIT 0,C` -/
def exec_bit_0_C (s : State) : Outcome := testBit 0 (.reg .c) s

/-- `BIT 0,D` -/
def exec_bit_0_D (s : State) : Outcome := testBit 0 (.reg .d) s

/-- `BIT 0,E` -/
def exec_bit_0_E (s : State) : Outcome := testBit 0 (.reg .e) s

/-- `BIT 0,H` -/
def exec_bit_0_H (s : State) : Outcome := testBit 0 (.reg .h) s

/-- `BIT 0,L` -/
def exec_bit_0_L (s : State) : Outcome := testBit 0 (.reg .l) s

/-- `BIT 0,(HL)` -/
def exec_bit_0_atHL (s : State) : Outcome := testBit 0 .atHL s

/-- `BIT 0,A` -/
def exec_bit_0_A (s : State) : Outcome := testBit 0 (.reg .a) s

/-- `BIT 1,B` -/
def exec_bit_1_B (s : State) : Outcome := testBit 1 (.reg .b) s

/-- `BIT 1,C` -/
def exec_bit_1_C (s : State) : Outcome := testBit 1 (.reg .c) s

/-- `BIT 1,D` -/
def exec_bit_1_D (s : State) : Outcome := testBit 1 (.reg .d) s

/-- `BIT 1,E` -/
def exec_bit_1_E (s : State) : Outcome := testBit 1 (.reg .e) s

/-- `BIT 1,H` -/
def exec_bit_1_H (s : State) : Outcome := testBit 1 (.reg .h) s

/-- `BIT 1,L` -/
def exec_bit_1_L (s : State) : Outcome := testBit 1 (.reg .l) s

/-- `BIT 1,(HL)` -/
def exec_bit_1_atHL (s : State) : Outcome := testBit 1 .atHL s

/-- `BIT 1,A` -/
def exec_bit_1_A (s : State) : Outcome := testBit 1 (.reg .a) s

/-- `BIT 2,B` -/
def exec_bit_2_B (s : State) : Outcome := testBit 2 (.reg .b) s

/-- `BIT 2,C` -/
def exec_bit_2_C (s : State) : Outcome := testBit 2 (.reg .c) s

/-- `BIT 2,D` -/
def exec_bit_2_D (s : State) : Outcome := testBit 2 (.reg .d) s

/-- `BIT 2,E` -/
def exec_bit_2_E (s : State) : Outcome := testBit 2 (.reg .e) s

/-- `BIT 2,H` -/
def exec_bit_2_H (s : State) : Outcome := testBit 2 (.reg .h) s

/-- `BIT 2,L` -/
def exec_bit_2_L (s : State) : Outcome := testBit 2 (.reg .l) s

/-- `BIT 2,(HL)` -/
def exec_bit_2_atHL (s : State) : Outcome := testBit 2 .atHL s

/-- `BIT 2,A` -/
def exec_bit_2_A (s : State) : Outcome := testBit 2 (.reg .a) s

/-- `BIT 3,B` -/
def exec_bit_3_B (s : State) : Outcome := testBit 3 (.reg .b) s

/-- `BIT 3,C` -/
def exec_bit_3_C (s : State) : Outcome := testBit 3 (.reg .c) s

/-- `BIT 3,D` -/
def exec_bit_3_D (s : State) : Outcome := testBit 3 (.reg .d) s

/-- `BIT 3,E` -/
def exec_bit_3_E (s : State) : Outcome := testBit 3 (.reg .e) s

/-- `BIT 3,H` -/
def exec_bit_3_H (s : State) : Outcome := testBit 3 (.reg .h) s

/-- `BIT 3,L` -/
def exec_bit_3_L (s : State) : Outcome := testBit 3 (.reg .l) s

/-- `BIT 3,(HL)` -/
def exec_bit_3_atHL (s : State) : Outcome := testBit 3 .atHL s

/-- `BIT 3,A` -/
def exec_bit_3_A (s : State) : Outcome := testBit 3 (.reg .a) s

/-- `BIT 4,B` -/
def exec_bit_4_B (s : State) : Outcome := testBit 4 (.reg .b) s

/-- `BIT 4,C` -/
def exec_bit_4_C (s : State) : Outcome := testBit 4 (.reg .c) s

/-- `BIT 4,D` -/
def exec_bit_4_D (s : State) : Outcome := testBit 4 (.reg .d) s

/-- `BIT 4,E` -/
def exec_bit_4_E (s : State) : Outcome := testBit 4 (.reg .e) s

/-- `BIT 4,H` -/
def exec_bit_4_H (s : State) : Outcome := testBit 4 (.reg .h) s

/-- `BIT 4,L` -/
def exec_bit_4_L (s : State) : Outcome := testBit 4 (.reg .l) s

/-- `BIT 4,(HL)` -/
def exec_bit_4_atHL (s : State) : Outcome := testBit 4 .atHL s

/-- `BIT 4,A` -/
def exec_bit_4_A (s : State) : Outcome := testBit 4 (.reg .a) s

/-- `BIT 5,B` -/
def exec_bit_5_B (s : State) : Outcome := testBit 5 (.reg .b) s

/-- `BIT 5,C` -/
def exec_bit_5_C (s : State) : Outcome := testBit 5 (.reg .c) s

/-- `BIT 5,D` -/
def exec_bit_5_D (s : State) : Outcome := testBit 5 (.reg .d) s

/-- `BIT 5,E` -/
def exec_bit_5_E (s : State) : Outcome := testBit 5 (.reg .e) s

/-- `BIT 5,H` -/
def exec_bit_5_H (s : State) : Outcome := testBit 5 (.reg .h) s

/-- `BIT 5,L` -/
def exec_bit_5_L (s : State) : Outcome := testBit 5 (.reg .l) s

/-- `BIT 5,(HL)` -/
def exec_bit_5_atHL (s : State) : Outcome := testBit 5 .atHL s

/-- `BIT 5,A` -/
def exec_bit_5_A (s : State) : Outcome := testBit 5 (.reg .a) s

/-- `BIT 6,B` -/
def exec_bit_6_B (s : State) : Outcome := testBit 6 (.reg .b) s

/-- `BIT 6,C` -/
def exec_bit_6_C (s : State) : Outcome := testBit 6 (.reg .c) s

/-- `BIT 6,D` -/
def exec_bit_6_D (s : State) : Outcome := testBit 6 (.reg .d) s

/-- `BIT 6,E` -/
def exec_bit_6_E (s : State) : Outcome := testBit 6 (.reg .e) s

/-- `BIT 6,H` -/
def exec_bit_6_H (s : State) : Outcome := testBit 6 (.reg .h) s

/-- `BIT 6,L` -/
def exec_bit_6_L (s : State) : Outcome := testBit 6 (.reg .l) s

/-- `BIT 6,(HL)` -/
def exec_bit_6_atHL (s : State) : Outcome := testBit 6 .atHL s

/-- `BIT 6,A` -/
def exec_bit_6_A (s : State) : Outcome := testBit 6 (.reg .a) s

/-- `BIT 7,B` -/
def exec_bit_7_B (s : State) : Outcome := testBit 7 (.reg .b) s

/-- `BIT 7,C` -/
def exec_bit_7_C (s : State) : Outcome := testBit 7 (.reg .c) s

/-- `BIT 7,D` -/
def exec_bit_7_D (s : State) : Outcome := testBit 7 (.reg .d) s

/-- `BIT 7,E` -/
def exec_bit_7_E (s : State) : Outcome := testBit 7 (.reg .e) s

/-- `BIT 7,H` -/
def exec_bit_7_H (s : State) : Outcome := testBit 7 (.reg .h) s

/-- `BIT 7,L` -/
def exec_bit_7_L (s : State) : Outcome := testBit 7 (.reg .l) s

/-- `BIT 7,(HL)` -/
def exec_bit_7_atHL (s : State) : Outcome := testBit 7 .atHL s

/-- `BIT 7,A` -/
def exec_bit_7_A (s : State) : Outcome := testBit 7 (.reg .a) s

/-! R183 -/

/-- `RES 0,B` -/
def exec_res_0_B (s : State) : Outcome := resetBitOf 0 (.reg .b) s

/-- `RES 0,C` -/
def exec_res_0_C (s : State) : Outcome := resetBitOf 0 (.reg .c) s

/-- `RES 0,D` -/
def exec_res_0_D (s : State) : Outcome := resetBitOf 0 (.reg .d) s

/-- `RES 0,E` -/
def exec_res_0_E (s : State) : Outcome := resetBitOf 0 (.reg .e) s

/-- `RES 0,H` -/
def exec_res_0_H (s : State) : Outcome := resetBitOf 0 (.reg .h) s

/-- `RES 0,L` -/
def exec_res_0_L (s : State) : Outcome := resetBitOf 0 (.reg .l) s

/-- `RES 0,(HL)` -/
def exec_res_0_atHL (s : State) : Outcome := resetBitOf 0 .atHL s

/-- `RES 0,A` -/
def exec_res_0_A (s : State) : Outcome := resetBitOf 0 (.reg .a) s

/-- `RES 1,B` -/
def exec_res_1_B (s : State) : Outcome := resetBitOf 1 (.reg .b) s

/-- `RES 1,C` -/
def exec_res_1_C (s : State) : Outcome := resetBitOf 1 (.reg .c) s

/-- `RES 1,D` -/
def exec_res_1_D (s : State) : Outcome := resetBitOf 1 (.reg .d) s

/-- `RES 1,E` -/
def exec_res_1_E (s : State) : Outcome := resetBitOf 1 (.reg .e) s

/-- `RES 1,H` -/
def exec_res_1_H (s : State) : Outcome := resetBitOf 1 (.reg .h) s

/-- `RES 1,L` -/
def exec_res_1_L (s : State) : Outcome := resetBitOf 1 (.reg .l) s

/-- `RES 1,(HL)` -/
def exec_res_1_atHL (s : State) : Outcome := resetBitOf 1 .atHL s

/-- `RES 1,A` -/
def exec_res_1_A (s : State) : Outcome := resetBitOf 1 (.reg .a) s

/-- `RES 2,B` -/
def exec_res_2_B (s : State) : Outcome := resetBitOf 2 (.reg .b) s

/-- `RES 2,C` -/
def exec_res_2_C (s : State) : Outcome := resetBitOf 2 (.reg .c) s

/-- `RES 2,D` -/
def exec_res_2_D (s : State) : Outcome := resetBitOf 2 (.reg .d) s

/-- `RES 2,E` -/
def exec_res_2_E (s : State) : Outcome := resetBitOf 2 (.reg .e) s

/-- `RES 2,H` -/
def exec_res_2_H (s : State) : Outcome := resetBitOf 2 (.reg .h) s

/-- `RES 2,L` -/
def exec_res_2_L (s : State) : Outcome := resetBitOf 2 (.reg .l) s

/-- `RES 2,(HL)` -/
def exec_res_2_atHL (s : State) : Outcome := resetBitOf 2 .atHL s

/-- `RES 2,A` -/
def exec_res_2_A (s : State) : Outcome := resetBitOf 2 (.reg .a) s

/-- `RES 3,B` -/
def exec_res_3_B (s : State) : Outcome := resetBitOf 3 (.reg .b) s

/-- `RES 3,C` -/
def exec_res_3_C (s : State) : Outcome := resetBitOf 3 (.reg .c) s

/-- `RES 3,D` -/
def exec_res_3_D (s : State) : Outcome := resetBitOf 3 (.reg .d) s

/-- `RES 3,E` -/
def exec_res_3_E (s : State) : Outcome := resetBitOf 3 (.reg .e) s

/-- `RES 3,H` -/
def exec_res_3_H (s : State) : Outcome := resetBitOf 3 (.reg .h) s

/-- `RES 3,L` -/
def exec_res_3_L (s : State) : Outcome := resetBitOf 3 (.reg .l) s

/-- `RES 3,(HL)` -/
def exec_res_3_atHL (s : State) : Outcome := resetBitOf 3 .atHL s

/-- `RES 3,A` -/
def exec_res_3_A (s : State) : Outcome := resetBitOf 3 (.reg .a) s

/-- `RES 4,B` -/
def exec_res_4_B (s : State) : Outcome := resetBitOf 4 (.reg .b) s

/-- `RES 4,C` -/
def exec_res_4_C (s : State) : Outcome := resetBitOf 4 (.reg .c) s

/-- `RES 4,D` -/
def exec_res_4_D (s : State) : Outcome := resetBitOf 4 (.reg .d) s

/-- `RES 4,E` -/
def exec_res_4_E (s : State) : Outcome := resetBitOf 4 (.reg .e) s

/-- `RES 4,H` -/
def exec_res_4_H (s : State) : Outcome := resetBitOf 4 (.reg .h) s

/-- `RES 4,L` -/
def exec_res_4_L (s : State) : Outcome := resetBitOf 4 (.reg .l) s

/-- `RES 4,(HL)` -/
def exec_res_4_atHL (s : State) : Outcome := resetBitOf 4 .atHL s

/-- `RES 4,A` -/
def exec_res_4_A (s : State) : Outcome := resetBitOf 4 (.reg .a) s

/-- `RES 5,B` -/
def exec_res_5_B (s : State) : Outcome := resetBitOf 5 (.reg .b) s

/-- `RES 5,C` -/
def exec_res_5_C (s : State) : Outcome := resetBitOf 5 (.reg .c) s

/-- `RES 5,D` -/
def exec_res_5_D (s : State) : Outcome := resetBitOf 5 (.reg .d) s

/-- `RES 5,E` -/
def exec_res_5_E (s : State) : Outcome := resetBitOf 5 (.reg .e) s

/-- `RES 5,H` -/
def exec_res_5_H (s : State) : Outcome := resetBitOf 5 (.reg .h) s

/-- `RES 5,L` -/
def exec_res_5_L (s : State) : Outcome := resetBitOf 5 (.reg .l) s

/-- `RES 5,(HL)` -/
def exec_res_5_atHL (s : State) : Outcome := resetBitOf 5 .atHL s

/-- `RES 5,A` -/
def exec_res_5_A (s : State) : Outcome := resetBitOf 5 (.reg .a) s

/-- `RES 6,B` -/
def exec_res_6_B (s : State) : Outcome := resetBitOf 6 (.reg .b) s

/-- `RES 6,C` -/
def exec_res_6_C (s : State) : Outcome := resetBitOf 6 (.reg .c) s

/-- `RES 6,D` -/
def exec_res_6_D (s : State) : Outcome := resetBitOf 6 (.reg .d) s

/-- `RES 6,E` -/
def exec_res_6_E (s : State) : Outcome := resetBitOf 6 (.reg .e) s

/-- `RES 6,H` -/
def exec_res_6_H (s : State) : Outcome := resetBitOf 6 (.reg .h) s

/-- `RES 6,L` -/
def exec_res_6_L (s : State) : Outcome := resetBitOf 6 (.reg .l) s

/-- `RES 6,(HL)` -/
def exec_res_6_atHL (s : State) : Outcome := resetBitOf 6 .atHL s

/-- `RES 6,A` -/
def exec_res_6_A (s : State) : Outcome := resetBitOf 6 (.reg .a) s

/-- `RES 7,B` -/
def exec_res_7_B (s : State) : Outcome := resetBitOf 7 (.reg .b) s

/-- `RES 7,C` -/
def exec_res_7_C (s : State) : Outcome := resetBitOf 7 (.reg .c) s

/-- `RES 7,D` -/
def exec_res_7_D (s : State) : Outcome := resetBitOf 7 (.reg .d) s

/-- `RES 7,E` -/
def exec_res_7_E (s : State) : Outcome := resetBitOf 7 (.reg .e) s

/-- `RES 7,H` -/
def exec_res_7_H (s : State) : Outcome := resetBitOf 7 (.reg .h) s

/-- `RES 7,L` -/
def exec_res_7_L (s : State) : Outcome := resetBitOf 7 (.reg .l) s

/-- `RES 7,(HL)` -/
def exec_res_7_atHL (s : State) : Outcome := resetBitOf 7 .atHL s

/-- `RES 7,A` -/
def exec_res_7_A (s : State) : Outcome := resetBitOf 7 (.reg .a) s

/-! R184 -/

/-- `SET 0,B` -/
def exec_set_0_B (s : State) : Outcome := setBitOf 0 (.reg .b) s

/-- `SET 0,C` -/
def exec_set_0_C (s : State) : Outcome := setBitOf 0 (.reg .c) s

/-- `SET 0,D` -/
def exec_set_0_D (s : State) : Outcome := setBitOf 0 (.reg .d) s

/-- `SET 0,E` -/
def exec_set_0_E (s : State) : Outcome := setBitOf 0 (.reg .e) s

/-- `SET 0,H` -/
def exec_set_0_H (s : State) : Outcome := setBitOf 0 (.reg .h) s

/-- `SET 0,L` -/
def exec_set_0_L (s : State) : Outcome := setBitOf 0 (.reg .l) s

/-- `SET 0,(HL)` -/
def exec_set_0_atHL (s : State) : Outcome := setBitOf 0 .atHL s

/-- `SET 0,A` -/
def exec_set_0_A (s : State) : Outcome := setBitOf 0 (.reg .a) s

/-- `SET 1,B` -/
def exec_set_1_B (s : State) : Outcome := setBitOf 1 (.reg .b) s

/-- `SET 1,C` -/
def exec_set_1_C (s : State) : Outcome := setBitOf 1 (.reg .c) s

/-- `SET 1,D` -/
def exec_set_1_D (s : State) : Outcome := setBitOf 1 (.reg .d) s

/-- `SET 1,E` -/
def exec_set_1_E (s : State) : Outcome := setBitOf 1 (.reg .e) s

/-- `SET 1,H` -/
def exec_set_1_H (s : State) : Outcome := setBitOf 1 (.reg .h) s

/-- `SET 1,L` -/
def exec_set_1_L (s : State) : Outcome := setBitOf 1 (.reg .l) s

/-- `SET 1,(HL)` -/
def exec_set_1_atHL (s : State) : Outcome := setBitOf 1 .atHL s

/-- `SET 1,A` -/
def exec_set_1_A (s : State) : Outcome := setBitOf 1 (.reg .a) s

/-- `SET 2,B` -/
def exec_set_2_B (s : State) : Outcome := setBitOf 2 (.reg .b) s

/-- `SET 2,C` -/
def exec_set_2_C (s : State) : Outcome := setBitOf 2 (.reg .c) s

/-- `SET 2,D` -/
def exec_set_2_D (s : State) : Outcome := setBitOf 2 (.reg .d) s

/-- `SET 2,E` -/
def exec_set_2_E (s : State) : Outcome := setBitOf 2 (.reg .e) s

/-- `SET 2,H` -/
def exec_set_2_H (s : State) : Outcome := setBitOf 2 (.reg .h) s

/-- `SET 2,L` -/
def exec_set_2_L (s : State) : Outcome := setBitOf 2 (.reg .l) s

/-- `SET 2,(HL)` -/
def exec_set_2_atHL (s : State) : Outcome := setBitOf 2 .atHL s

/-- `SET 2,A` -/
def exec_set_2_A (s : State) : Outcome := setBitOf 2 (.reg .a) s

/-- `SET 3,B` -/
def exec_set_3_B (s : State) : Outcome := setBitOf 3 (.reg .b) s

/-- `SET 3,C` -/
def exec_set_3_C (s : State) : Outcome := setBitOf 3 (.reg .c) s

/-- `SET 3,D` -/
def exec_set_3_D (s : State) : Outcome := setBitOf 3 (.reg .d) s

/-- `SET 3,E` -/
def exec_set_3_E (s : State) : Outcome := setBitOf 3 (.reg .e) s

/-- `SET 3,H` -/
def exec_set_3_H (s : State) : Outcome := setBitOf 3 (.reg .h) s

/-- `SET 3,L` -/
def exec_set_3_L (s : State) : Outcome := setBitOf 3 (.reg .l) s

/-- `SET 3,(HL)` -/
def exec_set_3_atHL (s : State) : Outcome := setBitOf 3 .atHL s

/-- `SET 3,A` -/
def exec_set_3_A (s : State) : Outcome := setBitOf 3 (.reg .a) s

/-- `SET 4,B` -/
def exec_set_4_B (s : State) : Outcome := setBitOf 4 (.reg .b) s

/-- `SET 4,C` -/
def exec_set_4_C (s : State) : Outcome := setBitOf 4 (.reg .c) s

/-- `SET 4,D` -/
def exec_set_4_D (s : State) : Outcome := setBitOf 4 (.reg .d) s

/-- `SET 4,E` -/
def exec_set_4_E (s : State) : Outcome := setBitOf 4 (.reg .e) s

/-- `SET 4,H` -/
def exec_set_4_H (s : State) : Outcome := setBitOf 4 (.reg .h) s

/-- `SET 4,L` -/
def exec_set_4_L (s : State) : Outcome := setBitOf 4 (.reg .l) s

/-- `SET 4,(HL)` -/
def exec_set_4_atHL (s : State) : Outcome := setBitOf 4 .atHL s

/-- `SET 4,A` -/
def exec_set_4_A (s : State) : Outcome := setBitOf 4 (.reg .a) s

/-- `SET 5,B` -/
def exec_set_5_B (s : State) : Outcome := setBitOf 5 (.reg .b) s

/-- `SET 5,C` -/
def exec_set_5_C (s : State) : Outcome := setBitOf 5 (.reg .c) s

/-- `SET 5,D` -/
def exec_set_5_D (s : State) : Outcome := setBitOf 5 (.reg .d) s

/-- `SET 5,E` -/
def exec_set_5_E (s : State) : Outcome := setBitOf 5 (.reg .e) s

/-- `SET 5,H` -/
def exec_set_5_H (s : State) : Outcome := setBitOf 5 (.reg .h) s

/-- `SET 5,L` -/
def exec_set_5_L (s : State) : Outcome := setBitOf 5 (.reg .l) s

/-- `SET 5,(HL)` -/
def exec_set_5_atHL (s : State) : Outcome := setBitOf 5 .atHL s

/-- `SET 5,A` -/
def exec_set_5_A (s : State) : Outcome := setBitOf 5 (.reg .a) s

/-- `SET 6,B` -/
def exec_set_6_B (s : State) : Outcome := setBitOf 6 (.reg .b) s

/-- `SET 6,C` -/
def exec_set_6_C (s : State) : Outcome := setBitOf 6 (.reg .c) s

/-- `SET 6,D` -/
def exec_set_6_D (s : State) : Outcome := setBitOf 6 (.reg .d) s

/-- `SET 6,E` -/
def exec_set_6_E (s : State) : Outcome := setBitOf 6 (.reg .e) s

/-- `SET 6,H` -/
def exec_set_6_H (s : State) : Outcome := setBitOf 6 (.reg .h) s

/-- `SET 6,L` -/
def exec_set_6_L (s : State) : Outcome := setBitOf 6 (.reg .l) s

/-- `SET 6,(HL)` -/
def exec_set_6_atHL (s : State) : Outcome := setBitOf 6 .atHL s

/-- `SET 6,A` -/
def exec_set_6_A (s : State) : Outcome := setBitOf 6 (.reg .a) s

/-- `SET 7,B` -/
def exec_set_7_B (s : State) : Outcome := setBitOf 7 (.reg .b) s

/-- `SET 7,C` -/
def exec_set_7_C (s : State) : Outcome := setBitOf 7 (.reg .c) s

/-- `SET 7,D` -/
def exec_set_7_D (s : State) : Outcome := setBitOf 7 (.reg .d) s

/-- `SET 7,E` -/
def exec_set_7_E (s : State) : Outcome := setBitOf 7 (.reg .e) s

/-- `SET 7,H` -/
def exec_set_7_H (s : State) : Outcome := setBitOf 7 (.reg .h) s

/-- `SET 7,L` -/
def exec_set_7_L (s : State) : Outcome := setBitOf 7 (.reg .l) s

/-- `SET 7,(HL)` -/
def exec_set_7_atHL (s : State) : Outcome := setBitOf 7 .atHL s

/-- `SET 7,A` -/
def exec_set_7_A (s : State) : Outcome := setBitOf 7 (.reg .a) s

end Sys2Proof.Machine
end

