-- ==== Sys2Proof/Machine/Control.lean ====
section
/-! DEFINITION. Control transfer (44_control): the shared operations, then one meaning per row. In a
meaning `s.pc` is already the address after the instruction (R93). -/

namespace Sys2Proof.Machine

/-- `pc <- t` (R191, R193, R194). -/
def jump (t : Word) (cycles : Nat) (s : State) : Outcome := .next ({ s with pc := t }.cost cycles)

/-- JP cc,a16 (R192). -/
def jumpIf (cc : Cond) (t : Word) (s : State) : Outcome :=
  if condHolds cc s.flags then jump t 16 s else .next (s.cost 12)

/-- JR cc,e8 (R195). -/
def jumpRelIf (cc : Cond) (e : Byte) (s : State) : Outcome :=
  if condHolds cc s.flags then jump (relTarget s.pc e) 12 s else .next (s.cost 8)

/-- `Push16(pc); pc <- t` (R196, R201). -/
def call (t : Word) (cycles : Nat) (s : State) : Outcome :=
  andThen (push16 s.pc s) fun s => .next ({ s with pc := t }.cost cycles)

/-- CALL cc,a16 (R197). -/
def callIf (cc : Cond) (t : Word) (s : State) : Outcome :=
  if condHolds cc s.flags then call t 24 s else .next (s.cost 12)

/-- `pc <- Pop16()` (R198). -/
def ret (cycles : Nat) (s : State) : Outcome :=
  let (t, s) := pop16 s
  .next ({ s with pc := t }.cost cycles)

/-- RET cc (R199). -/
def retIf (cc : Cond) (s : State) : Outcome :=
  if condHolds cc s.flags then ret 20 s else .next (s.cost 8)

/-- RETI (R200). -/
def returnInterrupt (s : State) : Outcome := .next ((returnFromInterrupt s).cost 16)

/-- The RST target `zext_16(y * 8)` (R88). -/
def restartVector (y : Fin 8) : Word := BitVec.ofNat 16 (y.val * 8)

/-! R194 -/

/-- `JR e8` -/
def exec_jr_e8 (e : Byte) (s : State) : Outcome := jump (relTarget s.pc e) 12 s

/-! R195 -/

/-- `JR NZ,e8` -/
def exec_jr_NZ_e8 (e : Byte) (s : State) : Outcome := jumpRelIf .nz e s

/-- `JR Z,e8` -/
def exec_jr_Z_e8 (e : Byte) (s : State) : Outcome := jumpRelIf .z e s

/-- `JR NC,e8` -/
def exec_jr_NC_e8 (e : Byte) (s : State) : Outcome := jumpRelIf .nc e s

/-- `JR C,e8` -/
def exec_jr_C_e8 (e : Byte) (s : State) : Outcome := jumpRelIf .c e s

/-! R199 -/

/-- `RET NZ` -/
def exec_ret_NZ (s : State) : Outcome := retIf .nz s

/-! R192 -/

/-- `JP NZ,a16` -/
def exec_jp_NZ_a16 (nn : Word) (s : State) : Outcome := jumpIf .nz nn s

/-! R191 -/

/-- `JP a16` -/
def exec_jp_a16 (nn : Word) (s : State) : Outcome := jump nn 16 s

/-! R197 -/

/-- `CALL NZ,a16` -/
def exec_call_NZ_a16 (nn : Word) (s : State) : Outcome := callIf .nz nn s

/-! R201 -/

/-- `RST 0x00` -/
def exec_rst_00 (s : State) : Outcome := call (restartVector 0) 16 s

/-! R199 -/

/-- `RET Z` -/
def exec_ret_Z (s : State) : Outcome := retIf .z s

/-! R198 -/

/-- `RET` -/
def exec_ret (s : State) : Outcome := ret 16 s

/-! R192 -/

/-- `JP Z,a16` -/
def exec_jp_Z_a16 (nn : Word) (s : State) : Outcome := jumpIf .z nn s

/-! R197 -/

/-- `CALL Z,a16` -/
def exec_call_Z_a16 (nn : Word) (s : State) : Outcome := callIf .z nn s

/-! R196 -/

/-- `CALL a16` -/
def exec_call_a16 (nn : Word) (s : State) : Outcome := call nn 24 s

/-! R201 -/

/-- `RST 0x08` -/
def exec_rst_08 (s : State) : Outcome := call (restartVector 1) 16 s

/-! R199 -/

/-- `RET NC` -/
def exec_ret_NC (s : State) : Outcome := retIf .nc s

/-! R192 -/

/-- `JP NC,a16` -/
def exec_jp_NC_a16 (nn : Word) (s : State) : Outcome := jumpIf .nc nn s

/-! R197 -/

/-- `CALL NC,a16` -/
def exec_call_NC_a16 (nn : Word) (s : State) : Outcome := callIf .nc nn s

/-! R201 -/

/-- `RST 0x10` -/
def exec_rst_10 (s : State) : Outcome := call (restartVector 2) 16 s

/-! R199 -/

/-- `RET C` -/
def exec_ret_C (s : State) : Outcome := retIf .c s

/-! R200 -/

/-- `RETI` -/
def exec_reti (s : State) : Outcome := returnInterrupt s

/-! R192 -/

/-- `JP C,a16` -/
def exec_jp_C_a16 (nn : Word) (s : State) : Outcome := jumpIf .c nn s

/-! R197 -/

/-- `CALL C,a16` -/
def exec_call_C_a16 (nn : Word) (s : State) : Outcome := callIf .c nn s

/-! R201 -/

/-- `RST 0x18` -/
def exec_rst_18 (s : State) : Outcome := call (restartVector 3) 16 s

/-- `RST 0x20` -/
def exec_rst_20 (s : State) : Outcome := call (restartVector 4) 16 s

/-! R193 -/

/-- `JP HL` -/
def exec_jp_HL (s : State) : Outcome := jump s.hl 4 s

/-! R201 -/

/-- `RST 0x28` -/
def exec_rst_28 (s : State) : Outcome := call (restartVector 5) 16 s

/-- `RST 0x30` -/
def exec_rst_30 (s : State) : Outcome := call (restartVector 6) 16 s

/-- `RST 0x38` -/
def exec_rst_38 (s : State) : Outcome := call (restartVector 7) 16 s

end Sys2Proof.Machine
end

