-- ==== Sys2Proof/Machine/Loads.lean ====
section
/-! DEFINITION. Loads, stores and stack transfers (40_load): the shared operations, then one meaning per
row. In a meaning `s.pc` is already the address after the instruction (R93). -/

namespace Sys2Proof.Machine

/-- `x[d] <- x[s]` (R102). -/
def loadReg (dst src : Reg8) (s : State) : Outcome := .next ((s.setReg dst (s.reg src)).cost 4)

/-- `x[d] <- n` (R103). -/
def loadImm (dst : Reg8) (n : Byte) (s : State) : Outcome := .next ((s.setReg dst n).cost 8)

/-- `x[d] <- MemRead(a, 1)` (R104, R107, R113, R115, R117). -/
def loadMem (dst : Reg8) (a : Word) (cycles : Nat) (s : State) : Outcome :=
  let (v, s) := memRead a s
  .next ((s.setReg dst v).cost cycles)

/-- `MemWrite(a, 1, v)` (R105, R106, R108, R114, R116, R118). -/
def storeMem (a : Word) (v : Byte) (cycles : Nat) (s : State) : Outcome :=
  andThen (memWrite a v s) fun s => .next (s.cost cycles)

/-- `LD A,(HL+)` and `LD A,(HL-)`: HL moves by `d` after the read (R109, R110). -/
def loadMemStep (d : Word) (s : State) : Outcome :=
  let a := s.hl
  let (v, s) := memRead a s
  .next (((s.setReg .a v).setReg16 .hl (a + d)).cost 8)

/-- `LD (HL+),A` and `LD (HL-),A`: HL moves by `d` after the write (R111, R112). -/
def storeMemStep (d : Word) (s : State) : Outcome :=
  let a := s.hl
  andThen (memWrite a (s.reg .a) s) fun s => .next ((s.setReg16 .hl (a + d)).cost 8)

/-- `x[rr] <- nn` (R119). -/
def loadR16 (rr : Reg16) (nn : Word) (s : State) : Outcome := .next ((s.setReg16 rr nn).cost 12)

/-- `LD (a16),SP`: the low byte, then the high byte (R120). -/
def storeSp (a : Word) (s : State) : Outcome :=
  andThen (memWrite a (loByte s.sp) s) fun s =>
    andThen (memWrite (a + 1) (hiByte s.sp) s) fun s => .next (s.cost 20)

/-- `sp <- x[HL]` (R121). -/
def spFromHl (s : State) : Outcome := .next ({ s with sp := s.hl }.cost 8)

/-- `Push16(x[rr])` (R122). -/
def pushReg (rr : StkReg) (s : State) : Outcome :=
  andThen (push16 (s.stkReg rr) s) fun s => .next (s.cost 16)

/-- `x[rr] <- Pop16()` (R123, R124). -/
def popReg (rr : StkReg) (s : State) : Outcome :=
  let (v, s) := pop16 s
  .next ((s.setStkReg rr v).cost 12)

/-! R119 -/

/-- `LD BC,n16` -/
def exec_ld_BC_n16 (nn : Word) (s : State) : Outcome := loadR16 .bc nn s

/-! R108 -/

/-- `LD (BC),A` -/
def exec_ld_atBC_A (s : State) : Outcome := storeMem s.bc (s.reg .a) 8 s

/-! R103 -/

/-- `LD B,n8` -/
def exec_ld_B_n8 (n : Byte) (s : State) : Outcome := loadImm .b n s

/-! R120 -/

/-- `LD (a16),SP` -/
def exec_ld_ata16_SP (nn : Word) (s : State) : Outcome := storeSp nn s

/-! R107 -/

/-- `LD A,(BC)` -/
def exec_ld_A_atBC (s : State) : Outcome := loadMem .a s.bc 8 s

/-! R103 -/

/-- `LD C,n8` -/
def exec_ld_C_n8 (n : Byte) (s : State) : Outcome := loadImm .c n s

/-! R119 -/

/-- `LD DE,n16` -/
def exec_ld_DE_n16 (nn : Word) (s : State) : Outcome := loadR16 .de nn s

/-! R108 -/

/-- `LD (DE),A` -/
def exec_ld_atDE_A (s : State) : Outcome := storeMem s.de (s.reg .a) 8 s

/-! R103 -/

/-- `LD D,n8` -/
def exec_ld_D_n8 (n : Byte) (s : State) : Outcome := loadImm .d n s

/-! R107 -/

/-- `LD A,(DE)` -/
def exec_ld_A_atDE (s : State) : Outcome := loadMem .a s.de 8 s

/-! R103 -/

/-- `LD E,n8` -/
def exec_ld_E_n8 (n : Byte) (s : State) : Outcome := loadImm .e n s

/-! R119 -/

/-- `LD HL,n16` -/
def exec_ld_HL_n16 (nn : Word) (s : State) : Outcome := loadR16 .hl nn s

/-! R111 -/

/-- `LD (HL+),A` -/
def exec_ld_atHLI_A (s : State) : Outcome := storeMemStep 1#16 s

/-! R103 -/

/-- `LD H,n8` -/
def exec_ld_H_n8 (n : Byte) (s : State) : Outcome := loadImm .h n s

/-! R109 -/

/-- `LD A,(HL+)` -/
def exec_ld_A_atHLI (s : State) : Outcome := loadMemStep 1#16 s

/-! R103 -/

/-- `LD L,n8` -/
def exec_ld_L_n8 (n : Byte) (s : State) : Outcome := loadImm .l n s

/-! R119 -/

/-- `LD SP,n16` -/
def exec_ld_SP_n16 (nn : Word) (s : State) : Outcome := loadR16 .sp nn s

/-! R112 -/

/-- `LD (HL-),A` -/
def exec_ld_atHLD_A (s : State) : Outcome := storeMemStep (-1#16) s

/-! R106 -/

/-- `LD (HL),n8` -/
def exec_ld_atHL_n8 (n : Byte) (s : State) : Outcome := storeMem s.hl n 12 s

/-! R110 -/

/-- `LD A,(HL-)` -/
def exec_ld_A_atHLD (s : State) : Outcome := loadMemStep (-1#16) s

/-! R103 -/

/-- `LD A,n8` -/
def exec_ld_A_n8 (n : Byte) (s : State) : Outcome := loadImm .a n s

/-! R102 -/

/-- `LD B,B` -/
def exec_ld_B_B (s : State) : Outcome := loadReg .b .b s

/-- `LD B,C` -/
def exec_ld_B_C (s : State) : Outcome := loadReg .b .c s

/-- `LD B,D` -/
def exec_ld_B_D (s : State) : Outcome := loadReg .b .d s

/-- `LD B,E` -/
def exec_ld_B_E (s : State) : Outcome := loadReg .b .e s

/-- `LD B,H` -/
def exec_ld_B_H (s : State) : Outcome := loadReg .b .h s

/-- `LD B,L` -/
def exec_ld_B_L (s : State) : Outcome := loadReg .b .l s

/-! R104 -/

/-- `LD B,(HL)` -/
def exec_ld_B_atHL (s : State) : Outcome := loadMem .b s.hl 8 s

/-! R102 -/

/-- `LD B,A` -/
def exec_ld_B_A (s : State) : Outcome := loadReg .b .a s

/-- `LD C,B` -/
def exec_ld_C_B (s : State) : Outcome := loadReg .c .b s

/-- `LD C,C` -/
def exec_ld_C_C (s : State) : Outcome := loadReg .c .c s

/-- `LD C,D` -/
def exec_ld_C_D (s : State) : Outcome := loadReg .c .d s

/-- `LD C,E` -/
def exec_ld_C_E (s : State) : Outcome := loadReg .c .e s

/-- `LD C,H` -/
def exec_ld_C_H (s : State) : Outcome := loadReg .c .h s

/-- `LD C,L` -/
def exec_ld_C_L (s : State) : Outcome := loadReg .c .l s

/-! R104 -/

/-- `LD C,(HL)` -/
def exec_ld_C_atHL (s : State) : Outcome := loadMem .c s.hl 8 s

/-! R102 -/

/-- `LD C,A` -/
def exec_ld_C_A (s : State) : Outcome := loadReg .c .a s

/-- `LD D,B` -/
def exec_ld_D_B (s : State) : Outcome := loadReg .d .b s

/-- `LD D,C` -/
def exec_ld_D_C (s : State) : Outcome := loadReg .d .c s

/-- `LD D,D` -/
def exec_ld_D_D (s : State) : Outcome := loadReg .d .d s

/-- `LD D,E` -/
def exec_ld_D_E (s : State) : Outcome := loadReg .d .e s

/-- `LD D,H` -/
def exec_ld_D_H (s : State) : Outcome := loadReg .d .h s

/-- `LD D,L` -/
def exec_ld_D_L (s : State) : Outcome := loadReg .d .l s

/-! R104 -/

/-- `LD D,(HL)` -/
def exec_ld_D_atHL (s : State) : Outcome := loadMem .d s.hl 8 s

/-! R102 -/

/-- `LD D,A` -/
def exec_ld_D_A (s : State) : Outcome := loadReg .d .a s

/-- `LD E,B` -/
def exec_ld_E_B (s : State) : Outcome := loadReg .e .b s

/-- `LD E,C` -/
def exec_ld_E_C (s : State) : Outcome := loadReg .e .c s

/-- `LD E,D` -/
def exec_ld_E_D (s : State) : Outcome := loadReg .e .d s

/-- `LD E,E` -/
def exec_ld_E_E (s : State) : Outcome := loadReg .e .e s

/-- `LD E,H` -/
def exec_ld_E_H (s : State) : Outcome := loadReg .e .h s

/-- `LD E,L` -/
def exec_ld_E_L (s : State) : Outcome := loadReg .e .l s

/-! R104 -/

/-- `LD E,(HL)` -/
def exec_ld_E_atHL (s : State) : Outcome := loadMem .e s.hl 8 s

/-! R102 -/

/-- `LD E,A` -/
def exec_ld_E_A (s : State) : Outcome := loadReg .e .a s

/-- `LD H,B` -/
def exec_ld_H_B (s : State) : Outcome := loadReg .h .b s

/-- `LD H,C` -/
def exec_ld_H_C (s : State) : Outcome := loadReg .h .c s

/-- `LD H,D` -/
def exec_ld_H_D (s : State) : Outcome := loadReg .h .d s

/-- `LD H,E` -/
def exec_ld_H_E (s : State) : Outcome := loadReg .h .e s

/-- `LD H,H` -/
def exec_ld_H_H (s : State) : Outcome := loadReg .h .h s

/-- `LD H,L` -/
def exec_ld_H_L (s : State) : Outcome := loadReg .h .l s

/-! R104 -/

/-- `LD H,(HL)` -/
def exec_ld_H_atHL (s : State) : Outcome := loadMem .h s.hl 8 s

/-! R102 -/

/-- `LD H,A` -/
def exec_ld_H_A (s : State) : Outcome := loadReg .h .a s

/-- `LD L,B` -/
def exec_ld_L_B (s : State) : Outcome := loadReg .l .b s

/-- `LD L,C` -/
def exec_ld_L_C (s : State) : Outcome := loadReg .l .c s

/-- `LD L,D` -/
def exec_ld_L_D (s : State) : Outcome := loadReg .l .d s

/-- `LD L,E` -/
def exec_ld_L_E (s : State) : Outcome := loadReg .l .e s

/-- `LD L,H` -/
def exec_ld_L_H (s : State) : Outcome := loadReg .l .h s

/-- `LD L,L` -/
def exec_ld_L_L (s : State) : Outcome := loadReg .l .l s

/-! R104 -/

/-- `LD L,(HL)` -/
def exec_ld_L_atHL (s : State) : Outcome := loadMem .l s.hl 8 s

/-! R102 -/

/-- `LD L,A` -/
def exec_ld_L_A (s : State) : Outcome := loadReg .l .a s

/-! R105 -/

/-- `LD (HL),B` -/
def exec_ld_atHL_B (s : State) : Outcome := storeMem s.hl (s.reg .b) 8 s

/-- `LD (HL),C` -/
def exec_ld_atHL_C (s : State) : Outcome := storeMem s.hl (s.reg .c) 8 s

/-- `LD (HL),D` -/
def exec_ld_atHL_D (s : State) : Outcome := storeMem s.hl (s.reg .d) 8 s

/-- `LD (HL),E` -/
def exec_ld_atHL_E (s : State) : Outcome := storeMem s.hl (s.reg .e) 8 s

/-- `LD (HL),H` -/
def exec_ld_atHL_H (s : State) : Outcome := storeMem s.hl (s.reg .h) 8 s

/-- `LD (HL),L` -/
def exec_ld_atHL_L (s : State) : Outcome := storeMem s.hl (s.reg .l) 8 s

/-- `LD (HL),A` -/
def exec_ld_atHL_A (s : State) : Outcome := storeMem s.hl (s.reg .a) 8 s

/-! R102 -/

/-- `LD A,B` -/
def exec_ld_A_B (s : State) : Outcome := loadReg .a .b s

/-- `LD A,C` -/
def exec_ld_A_C (s : State) : Outcome := loadReg .a .c s

/-- `LD A,D` -/
def exec_ld_A_D (s : State) : Outcome := loadReg .a .d s

/-- `LD A,E` -/
def exec_ld_A_E (s : State) : Outcome := loadReg .a .e s

/-- `LD A,H` -/
def exec_ld_A_H (s : State) : Outcome := loadReg .a .h s

/-- `LD A,L` -/
def exec_ld_A_L (s : State) : Outcome := loadReg .a .l s

/-! R104 -/

/-- `LD A,(HL)` -/
def exec_ld_A_atHL (s : State) : Outcome := loadMem .a s.hl 8 s

/-! R102 -/

/-- `LD A,A` -/
def exec_ld_A_A (s : State) : Outcome := loadReg .a .a s

/-! R123 -/

/-- `POP BC` -/
def exec_pop_BC (s : State) : Outcome := popReg .bc s

/-! R122 -/

/-- `PUSH BC` -/
def exec_push_BC (s : State) : Outcome := pushReg .bc s

/-! R123 -/

/-- `POP DE` -/
def exec_pop_DE (s : State) : Outcome := popReg .de s

/-! R122 -/

/-- `PUSH DE` -/
def exec_push_DE (s : State) : Outcome := pushReg .de s

/-! R116 -/

/-- `LDH (a8),A` -/
def exec_ldh_ata8_A (n : Byte) (s : State) : Outcome := storeMem (highPage n) (s.reg .a) 12 s

/-! R123 -/

/-- `POP HL` -/
def exec_pop_HL (s : State) : Outcome := popReg .hl s

/-! R118 -/

/-- `LD (C),A` -/
def exec_ld_atC_A (s : State) : Outcome := storeMem (highPage (s.reg .c)) (s.reg .a) 8 s

/-! R122 -/

/-- `PUSH HL` -/
def exec_push_HL (s : State) : Outcome := pushReg .hl s

/-! R114 -/

/-- `LD (a16),A` -/
def exec_ld_ata16_A (nn : Word) (s : State) : Outcome := storeMem nn (s.reg .a) 16 s

/-! R115 -/

/-- `LDH A,(a8)` -/
def exec_ldh_A_ata8 (n : Byte) (s : State) : Outcome := loadMem .a (highPage n) 12 s

/-! R124 -/

/-- `POP AF` -/
def exec_pop_AF (s : State) : Outcome := popReg .af s

/-! R117 -/

/-- `LD A,(C)` -/
def exec_ld_A_atC (s : State) : Outcome := loadMem .a (highPage (s.reg .c)) 8 s

/-! R122 -/

/-- `PUSH AF` -/
def exec_push_AF (s : State) : Outcome := pushReg .af s

/-! R121 -/

/-- `LD SP,HL` -/
def exec_ld_SP_HL (s : State) : Outcome := spFromHl s

/-! R113 -/

/-- `LD A,(a16)` -/
def exec_ld_A_ata16 (nn : Word) (s : State) : Outcome := loadMem .a nn 16 s

end Sys2Proof.Machine
end

