-- ==== Sys2Proof/Machine/System.lean ====
section
/-! DEFINITION. System and interrupt-control instructions and the illegal bytes (45_system): the shared
operations, then one meaning per row. -/

namespace Sys2Proof.Machine

/-- NOP (R210). -/
def noOperation (s : State) : Outcome := .next (s.cost 4)

/-- HALT (R211): the halted state, or the halt bug of R232. -/
def haltCpu (s : State) : Outcome :=
  if s.params.haltBug && !s.irq.ime && decide (s.pending ≠ 0) then
    .next ({ s with irq := { s.irq with hbPending := true } }.cost 4)
  else .next ({ s with irq := { s.irq with halted := true } }.cost 4)

/-- STOP (R212): the spec refuses it. -/
def stopCpu (_s : State) : Outcome := .refused .stopUnmodelled

/-- DI (R213). -/
def disableInterrupts (s : State) : Outcome := .next ((s.setMasterEnable false).cost 4)

/-- EI (R214). -/
def enableInterrupts (s : State) : Outcome := .next (s.requestDelayedEnable.cost 4)

/-- An illegal byte `o` fetched as byte 0 (R215): the fault at the address it was fetched from. -/
def illegalOpcode (o : Byte) (s : State) : Outcome := .fault (.decodeError s.start o)

/-! R210 -/

/-- `NOP` -/
def exec_nop (s : State) : Outcome := noOperation s

/-! R212 -/

/-- `STOP` -/
def exec_stop (_ignored : Byte) (s : State) : Outcome := stopCpu s

/-! R211 -/

/-- `HALT` -/
def exec_halt (s : State) : Outcome := haltCpu s

/-! R215 -/

/-- `ILLEGAL` -/
def exec_illegal_D3 (s : State) : Outcome := illegalOpcode 0xD3#8 s

/-- `ILLEGAL` -/
def exec_illegal_DB (s : State) : Outcome := illegalOpcode 0xDB#8 s

/-- `ILLEGAL` -/
def exec_illegal_DD (s : State) : Outcome := illegalOpcode 0xDD#8 s

/-- `ILLEGAL` -/
def exec_illegal_E3 (s : State) : Outcome := illegalOpcode 0xE3#8 s

/-- `ILLEGAL` -/
def exec_illegal_E4 (s : State) : Outcome := illegalOpcode 0xE4#8 s

/-- `ILLEGAL` -/
def exec_illegal_EB (s : State) : Outcome := illegalOpcode 0xEB#8 s

/-- `ILLEGAL` -/
def exec_illegal_EC (s : State) : Outcome := illegalOpcode 0xEC#8 s

/-- `ILLEGAL` -/
def exec_illegal_ED (s : State) : Outcome := illegalOpcode 0xED#8 s

/-! R213 -/

/-- `DI` -/
def exec_di (s : State) : Outcome := disableInterrupts s

/-! R215 -/

/-- `ILLEGAL` -/
def exec_illegal_F4 (s : State) : Outcome := illegalOpcode 0xF4#8 s

/-! R214 -/

/-- `EI` -/
def exec_ei (s : State) : Outcome := enableInterrupts s

/-! R215 -/

/-- `ILLEGAL` -/
def exec_illegal_FC (s : State) : Outcome := illegalOpcode 0xFC#8 s

/-- `ILLEGAL` -/
def exec_illegal_FD (s : State) : Outcome := illegalOpcode 0xFD#8 s

end Sys2Proof.Machine
end

