-- ==== Sys2Proof/Machine/Engine.lean ====
section
/-! DEFINITION. The Instruction Engine: fetching and performing one instruction (30_encoding R93), the
CPU step (60_exceptions R220) and the system step (00_scope R5); and storing an instruction where the
engine fetches next. -/

namespace Sys2Proof.Machine

/-- All the bytes of the instruction at `pc`, fetched in order through the dispatcher (R80, R93): the
instruction and the state after the fetches. -/
def fetchInstr (s : State) : Instr × State :=
  let (b0, s) := fetchByte s
  match instrLength b0 with
  | 1 => (decodeBytes b0 0 0, s)
  | 2 =>
    let (b1, s) := fetchByte s
    (decodeBytes b0 b1 0, s)
  | _ =>
    let (b1, s) := fetchByte s
    let (b2, s) := fetchByte s
    (decodeBytes b0 b1 b2, s)

/-- Perform one instruction (R93); `start` is the address of its byte 0. -/
def perform (s : State) : Outcome :=
  let (i, s) := fetchInstr { s with start := s.pc }
  exec i s

/-- Leaving the halted state (R231). -/
def wake (s : State) : State := { s with irq := { s.irq with halted := false } }

/-- One call of `step()` (R220). -/
def cpuStep (s : State) : Outcome :=
  match s.fault with
  | some f => .fault f
  | none =>
    match s.refused with
    | some r => .refused r
    | none =>
      if s.irq.halted && decide (s.pending = 0) then .next (s.cost 4)
      else if s.irq.ime && decide (s.pending ≠ 0) then service (wake s)
      else andThen (perform (wake s)) fun s => .next (eiCountdown s)

/-- The state in which the CPU step of a system step begins (R5): the environment's requests are made,
nothing is returned yet. -/
def beginStep (s : State) : State := clearOut (applyRequests s)

/-- One system step (R5): requests, CPU step, then the PPU advances by the count the CPU step
returned. -/
def systemStep (s : State) : Outcome :=
  andThen (cpuStep (beginStep s)) fun s => .next (advance s.out.cycles s)

/-- The state the caller holds after a system step (R6, R15): the next state, or the state at the start
of the CPU step with the fault or the refusal recorded (log entry 9). -/
def settleStep (s : State) : State :=
  match systemStep s with
  | .next t => t
  | .fault f => { beginStep s with fault := some f }
  | .refused r => { beginStep s with refused := some r }

/-! ### Placing an instruction -/

/-- `s` with `v` stored where a fetch from `a` reads: the boot image, the cartridge image or RAM. At an
address with no such storage behind it (an I/O register, IE, an unmapped address) nothing changes (log
entry 17). -/
def pokeByte (a : Word) (v : Byte) (s : State) : State :=
  match regionOf a with
  | .romFixed =>
    if s.bootMapped && decide (a.toNat < 0x100) then
      { s with boot := writeCells unlistedRom s.boot a.toNat v }
    else
      { s with cart := { s.cart with
          image := writeCells unlistedRom s.cart.image (s.bank0000 * 0x4000 + a.toNat) v } }
  | .romSwitch =>
    { s with cart := { s.cart with
        image := writeCells unlistedRom s.cart.image (s.bank4000 * 0x4000 + (a.toNat - 0x4000)) v } }
  | .videoRam => s.putRam a.toNat v
  | .extRam => if s.extRamOpen then s.putRam (s.extRamKey a) v else s
  | .workRam => s.putRam a.toNat v
  | .echo => s.putRam (a.toNat - 0x2000) v
  | .oam => s.putRam a.toNat v
  | .reserved => s
  | .io => s
  | .highRam => s.putRam a.toNat v
  | .intEnable => s

/-- `s` with the bytes stored from `a` upward. -/
def pokeBytes (a : Word) (bs : List Byte) (s : State) : State :=
  match bs with
  | [] => s
  | b :: r => pokeBytes (a + 1) r (pokeByte a b s)

/-- `s` ready to fetch at its next step: no fault or refusal recorded, not halted, no halt bug pending,
and IME off if an interrupt would be serviced first. -/
def readyToFetch (s : State) : State :=
  let preempted := s.irq.ime && decide ((beginStep s).pending ≠ 0)
  { s with
    fault := none, refused := none
    irq := { s.irq with halted := false, hbPending := false, ime := s.irq.ime && !preempted } }

/-- `s` with the instruction `bs` where its next step fetches. -/
def placeInstr (bs : List Byte) (s : State) : State := pokeBytes s.pc bs (readyToFetch s)

end Sys2Proof.Machine
end

