-- ==== Sys2Proof/Machine/Step.lean ====
section
/-! DEFINITION. One step of the machine, and an opcode-table word placed where it fetches. -/

namespace Sys2Proof.Machine

/-- One system step (00_scope R5). -/
def step (s : State) : Host.Outcome State Fault Refusal := systemStep s

/-- The state the caller holds after a step (R6, R15). -/
def State.settle (s : State) : State := settleStep s

/-- `s` with the instruction of an opcode-table word stored where `step` fetches next (log entry 4). -/
def State.withFetchWord (s : State) (nbits w : Nat) : State := placeInstr (tableBytes nbits w) s

end Sys2Proof.Machine
end

