-- ==== Sys2Proof/Safety.lean ====
section
/-! DEFINITION. The terms that statements about the machine use: where an instruction stores and which
reads a store can change (20_memory R69), what stops a step, the invariant of the states between system
steps, and runs and their end (00_scope R7). -/

namespace Sys2Proof.Machine

/-! ### Stores -/

/-- A write to `a` is not refused: only 0xFF46 is, and only with `P_DMA = refuse` (R62). -/
def mayWrite (s : State) (a : Word) : Bool := decide (a ≠ 0xFF46#16) || decide (s.params.dma = .instant)

/-- `a` is an external device register, whose reads the environment answers (R60). -/
def isExternal (a : Word) : Bool := isExtAddr a.toNat

/-- The key in `mem` of the RAM byte behind `a`, if there is RAM behind `a` (R54 to R58, R67). -/
def State.ramKey (s : State) (a : Word) : Option Nat :=
  match regionOf a with
  | .videoRam | .workRam | .oam | .highRam => some a.toNat
  | .echo => some (a.toNat - 0x2000)
  | .extRam => if s.extRamOpen then some (s.extRamKey a) else none
  | .romFixed | .romSwitch | .reserved | .io | .intEnable => none

/-- A write to `a` can change what a read of `b` gives: the byte itself, the other address of the same
RAM byte (R56), and the effects of R69 at the mapper, LCDC, LYC, DMA and BOOT. -/
def touches (s : State) (a b : Word) : Bool :=
  match regionOf a with
  | .romFixed | .romSwitch =>
    s.cart.isMbc1 && (decide (b.toNat < 0x8000) || decide (regionOf b = .extRam))
  | .videoRam | .workRam | .oam | .highRam | .echo | .extRam =>
    (s.ramKey a).isSome && decide (s.ramKey a = s.ramKey b)
  | .reserved => false
  | .io =>
    match ioRegOf a with
    | .ext => isExternal b
    | .lcdc => decide (b = a ∨ b = 0xFF41#16 ∨ b = 0xFF44#16)
    | .lyc => decide (b = a ∨ b = 0xFF41#16)
    | .dma => decide (b = a ∨ regionOf b = .oam) || isExternal b
    | .boot => decide (b.toNat < 0x100)
    | .ly | .unused => false
    | .ifr | .audio | .stat | .scy | .scx | .bgp | .obp0 | .obp1 | .wy | .wx => decide (b = a)
  | .intEnable => decide (b = a)

/-- The address an r8 operand stores to. -/
def operandStore (r : Operand8) (s : State) : List Word :=
  match r with
  | .reg _ => []
  | .atHL => [s.hl]

/-- The two addresses of a push, in store order (R100). -/
def pushStores (s : State) : List Word := [s.sp - 1, s.sp - 2]

/-- The addresses that instruction `i`, performed in `s`, stores a byte to, in store order. -/
def storesOf (i : Instr) (s : State) : List Word :=
  match i with
  | .ld_atHL_B | .ld_atHL_C | .ld_atHL_D | .ld_atHL_E | .ld_atHL_H | .ld_atHL_L | .ld_atHL_A => [s.hl]
  | .ld_atHL_n8 _ | .ld_atHLI_A | .ld_atHLD_A | .inc_atHL | .dec_atHL => [s.hl]
  | .ld_atBC_A => [s.bc]
  | .ld_atDE_A => [s.de]
  | .ld_ata16_A nn => [nn]
  | .ldh_ata8_A n => [highPage n]
  | .ld_atC_A => [highPage s.regs.c]
  | .ld_ata16_SP nn => [nn, nn + 1]
  | .push_BC | .push_DE | .push_HL | .push_AF => pushStores s
  | .call_a16 _ => pushStores s
  | .rst_00 | .rst_08 | .rst_10 | .rst_18 | .rst_20 | .rst_28 | .rst_30 | .rst_38 => pushStores s
  | .call_NZ_a16 _ => if condHolds .nz s.flags then pushStores s else []
  | .call_Z_a16 _ => if condHolds .z s.flags then pushStores s else []
  | .call_NC_a16 _ => if condHolds .nc s.flags then pushStores s else []
  | .call_C_a16 _ => if condHolds .c s.flags then pushStores s else []
  | .rlc_atHL | .rrc_atHL | .rl_atHL | .rr_atHL | .sla_atHL | .sra_atHL | .swap_atHL | .srl_atHL => [s.hl]
  | .res_0_atHL | .res_1_atHL | .res_2_atHL | .res_3_atHL | .res_4_atHL | .res_5_atHL | .res_6_atHL
  | .res_7_atHL => [s.hl]
  | .set_0_atHL | .set_1_atHL | .set_2_atHL | .set_3_atHL | .set_4_atHL | .set_5_atHL | .set_6_atHL
  | .set_7_atHL => [s.hl]
  | .prefixCB op => if fieldX op = 1 then [] else operandStore (operand8OfCode (fieldZ op)) s
  | _ => []

/-- Every store of `i` in `s` is one that is not refused. -/
def storesAllowed (i : Instr) (s : State) : Bool := (storesOf i s).all (mayWrite s)

/-- The eleven illegal bytes (R91), by constructor. -/
def illegalByte (i : Instr) : Option Byte :=
  match i with
  | .illegal_D3 => some 0xD3
  | .illegal_DB => some 0xDB
  | .illegal_DD => some 0xDD
  | .illegal_E3 => some 0xE3
  | .illegal_E4 => some 0xE4
  | .illegal_EB => some 0xEB
  | .illegal_EC => some 0xEC
  | .illegal_ED => some 0xED
  | .illegal_F4 => some 0xF4
  | .illegal_FC => some 0xFC
  | .illegal_FD => some 0xFD
  | _ => none

/-- STOP, with any second byte (R92, R212). -/
def isStop (i : Instr) : Bool :=
  match i with
  | .stop _ => true
  | _ => false

/-! ### What a change leaves alone -/

/-- `t` is `s` but for the general registers, SP, PC and the cycle count: memory, the mapper, the
interrupt and PPU registers and everything else are the same. -/
def onlyRegisters (s t : State) : Prop :=
  t = { s with regs := t.regs, sp := t.sp, pc := t.pc, out := { s.out with cycles := t.out.cycles } }

/-- The 8-bit registers but F, SP and PC are those of `s`. -/
def keptRegs (s t : State) : Prop := (∀ q, t.reg q = s.reg q) ∧ t.sp = s.sp ∧ t.pc = s.pc

/-- Of the 8-bit registers but F, SP and PC, only `r` is written; it holds `v`. -/
def wrote8 (s t : State) (r : Reg8) (v : Byte) : Prop :=
  (∀ q, t.reg q = if q = r then v else s.reg q) ∧ t.sp = s.sp ∧ t.pc = s.pc

/-- Of BC, DE, HL, SP, A and PC, only `rr` is written; it holds `v`. -/
def wrote16 (s t : State) (rr : Reg16) (v : Word) : Prop :=
  (∀ q, t.reg16 q = if q = rr then v else s.reg16 q) ∧ t.regs.a = s.regs.a ∧ t.pc = s.pc

/-- The flags are these, and the low nibble of F is 0 (R24). -/
def flagsAre (t : State) (z n h c : Bool) : Prop :=
  t.flags = { z := z, n := n, h := h, c := c } ∧ t.regs.f &&& 0x0F#8 = 0#8

/-- `t` has the CPU state of `s`: registers, SP, PC, and interrupt and execution control but IF and IE,
which are also in memory. -/
def sameCpu (s t : State) : Prop :=
  t.regs = s.regs ∧ t.sp = s.sp ∧ t.pc = s.pc ∧ t.start = s.start ∧ t.irq.ime = s.irq.ime ∧
  t.irq.eiDelay = s.irq.eiDelay ∧ t.irq.halted = s.irq.halted ∧ t.irq.hbPending = s.irq.hbPending

/-- `t` has what no instruction writes: the cartridge, the boot image, the parameters, the requests still
to come and the marks. -/
def sameSetting (s t : State) : Prop :=
  t.cart = s.cart ∧ t.boot = s.boot ∧ t.params = s.params ∧ t.env = s.env ∧ t.fault = s.fault ∧
  t.refused = s.refused

/-- Every byte reads as before but those that a store to an address of `as` can change, and those of the
external devices, whose answers are the environment's. -/
def memoryKept (s t : State) (as : List Word) : Prop :=
  ∀ b : Word, isExternal b = false → (∀ a ∈ as, touches s a b = false) → t.readByte b = s.readByte b

/-- Where RAM in canonical form lies behind `a`, a read of `a` gives `v`. -/
def holds (s t : State) (a : Word) (v : Byte) : Prop :=
  Memory.wf s.mem = true → (s.ramKey a).isSome = true → t.readByte a = v

/-- `t` is `u` after the write of `v` to `a`, but for registers and the cycle count; every byte that the
write cannot change reads as in `s`. -/
def stored (s u : State) (a : Word) (v : Byte) (t : State) : Prop :=
  (∃ w, memWrite a v u = .next w ∧ onlyRegisters w t) ∧ memoryKept s t [a] ∧ holds s t a v

/-- `t` is `s` after the writes of `v`'s high byte to `sp - 1` and then of its low byte to `sp - 2`, but
for registers and the cycle count; SP is 2 lower (R100). -/
def pushed (s : State) (v : Word) (t : State) : Prop :=
  (∃ u w, memWrite (s.sp - 1) (hiByte v) s = .next u ∧ memWrite (s.sp - 2) (loByte v) u = .next w ∧
    onlyRegisters w t) ∧
  t.regs = s.regs ∧ t.sp = s.sp - 2 ∧ memoryKept s t (pushStores s) ∧ holds s t (s.sp - 1) (hiByte v) ∧
  holds s t (s.sp - 2) (loByte v)

/-- The stores of a push are not refused. -/
def mayPush (s : State) : Bool := mayWrite s (s.sp - 1) && mayWrite s (s.sp - 2)

/-- The state after the two reads of a pop (R101). -/
def afterPop (s : State) : State := (s.noteRead s.sp).noteRead (s.sp + 1)

/-- The word a pop reads: the low byte at `sp`, then the high byte at `sp + 1` (R101). -/
def popWord (s : State) : Word := joinBytes ((s.noteRead s.sp).readByte (s.sp + 1)) (s.readByte s.sp)

/-- The value of an r8 operand, and the state after reading it (R83). -/
def operandValue (r : Operand8) (s : State) : Byte :=
  match r with
  | .reg q => s.reg q
  | .atHL => s.readByte s.hl

def operandState (r : Operand8) (s : State) : State :=
  match r with
  | .reg _ => s
  | .atHL => s.noteRead s.hl

/-! ### Effects as the rules state them -/

/-- A condition as a bit of the flags byte (R23, R86, R190). -/
def condTrue (cc : Cond) (s : State) : Bool :=
  match cc with
  | .nz => !s.regs.f.getLsbD 7
  | .z => s.regs.f.getLsbD 7
  | .nc => !s.regs.f.getLsbD 4
  | .c => s.regs.f.getLsbD 4

/-- The registers and flags after an ALU operation of `a` and `v` with carry `c` (R131 to R142). -/
def aluEffect (op : Alu) (a v : Byte) (c : Bool) (s t : State) : Prop :=
  match op with
  | .add =>
    wrote8 s t .a (a + v) ∧
    flagsAre t (decide (a + v = 0)) false (decide (0xF < a.toNat % 16 + v.toNat % 16))
      (decide (0xFF < a.toNat + v.toNat))
  | .adc =>
    wrote8 s t .a (a + v + BitVec.ofNat 8 c.toNat) ∧
    flagsAre t (decide (a + v + BitVec.ofNat 8 c.toNat = 0)) false
      (decide (0xF < a.toNat % 16 + v.toNat % 16 + c.toNat)) (decide (0xFF < a.toNat + v.toNat + c.toNat))
  | .sub =>
    wrote8 s t .a (a - v) ∧
    flagsAre t (decide (a = v)) true (decide (a.toNat % 16 < v.toNat % 16)) (decide (a.toNat < v.toNat))
  | .sbc =>
    wrote8 s t .a (a - v - BitVec.ofNat 8 c.toNat) ∧
    flagsAre t (decide (a - v - BitVec.ofNat 8 c.toNat = 0)) true
      (decide (a.toNat % 16 < v.toNat % 16 + c.toNat)) (decide (a.toNat < v.toNat + c.toNat))
  | .and => wrote8 s t .a (a &&& v) ∧ flagsAre t (decide (a &&& v = 0)) false true false
  | .xor => wrote8 s t .a (a ^^^ v) ∧ flagsAre t (decide (a = v)) false false false
  | .or => wrote8 s t .a (a ||| v) ∧ flagsAre t (decide (a ||| v = 0)) false false false
  | .cp =>
    keptRegs s t ∧
    flagsAre t (decide (a = v)) true (decide (a.toNat % 16 < v.toNat % 16)) (decide (a.toNat < v.toNat))

/-- The result of a rotate or shift of `v` with carry `c` before it, as a rearrangement of bits (R170 to
R181). -/
def rotValue (op : Rot) (v : Byte) (c : Bool) : Byte :=
  match op with
  | .rlc => v.rotateLeft 1
  | .rrc => v.rotateRight 1
  | .rl => v.extractLsb' 0 7 ++ BitVec.ofBool c
  | .rr => BitVec.ofBool c ++ v.extractLsb' 1 7
  | .sla => v.extractLsb' 0 7 ++ 0#1
  | .sra => v.sshiftRight 1
  | .swap => v.extractLsb' 0 4 ++ v.extractLsb' 4 4
  | .srl => 0#1 ++ v.extractLsb' 1 7

/-- The bit that a rotate or shift moves to the carry; SWAP clears it (R170 to R181). -/
def rotOut (op : Rot) (v : Byte) : Bool :=
  match op with
  | .rlc | .rl | .sla => v.getLsbD 7
  | .rrc | .rr | .sra | .srl => v.getLsbD 0
  | .swap => false

/-- The two decimal digits of `n` as a byte, the high digit in the high nibble. -/
def bcd (n : Nat) : Byte := BitVec.ofNat 8 (16 * (n / 10 % 10) + n % 10)

/-- What a load of register `r` from address `a` does (R104, R107, R113, R115, R117). -/
def loadsByte (i : Instr) (s : State) (r : Reg8) (a : Word) (n : Nat) : Prop :=
  ∃ t, exec i s = .next t ∧ onlyRegisters (s.noteRead a) t ∧ wrote8 s t r (s.readByte a) ∧
    t.regs.f = s.regs.f ∧ t.out.cycles = n ∧ memoryKept s t []

/-- What a store of `v` to address `a` does (R105, R106, R108, R114, R116, R118), and that it is refused
exactly where a write is (R125). -/
def storesByte (i : Instr) (s : State) (a : Word) (v : Byte) (n : Nat) : Prop :=
  (mayWrite s a = true → ∃ t, exec i s = .next t ∧ stored s s a v t ∧ keptRegs s t ∧
    t.regs.f = s.regs.f ∧ t.out.cycles = n) ∧
  (mayWrite s a = false → exec i s = .refused .dmaUnmodelled)

/-- `i` only moves PC, to `pc`, at the cost of `n` cycles. -/
def goesTo (i : Instr) (s : State) (pc : Word) (n : Nat) : Prop :=
  ∃ t, exec i s = .next t ∧ onlyRegisters s t ∧ t.regs = s.regs ∧ t.sp = s.sp ∧ t.pc = pc ∧
    t.out.cycles = n

/-- `i` pushes the return address and goes to `pc`. -/
def callsTo (i : Instr) (s : State) (pc : Word) (n : Nat) : Prop :=
  (mayPush s = true → ∃ t, exec i s = .next t ∧ pushed s s.pc t ∧ t.pc = pc ∧ t.out.cycles = n) ∧
  (mayPush s = false → exec i s = .refused .dmaUnmodelled)

/-- `i` pops PC. -/
def returnsFrom (i : Instr) (s : State) (n : Nat) : Prop :=
  ∃ t, exec i s = .next t ∧ onlyRegisters (afterPop s) t ∧ t.regs = s.regs ∧ t.sp = s.sp + 2 ∧
    t.pc = popWord s ∧ t.out.cycles = n ∧ memoryKept s t []

/-- The bus address of row `row` of background or window tile `t` (R254). -/
def tileAddress (s : State) (t : Byte) (row : Nat) : Word :=
  (if s.ppu.lcdc.getLsbD 4 = true then 0x8000#16 + 16#16 * t.zeroExtend 16
    else 0x9000#16 + 16#16 * t.signExtend 16) + BitVec.ofNat 16 (2 * row)

/-- The colour index in column `col` of the tile row whose two bitplane bytes stand at bus address `a`: the
first byte gives bit 0, and the leftmost pixel is bit 7 (R254, R256). -/
def busPixel (s : State) (a : Word) (col : Nat) : Nat :=
  2 * ((s.readByte (a + 1)).getLsbD (7 - col)).toNat + ((s.readByte a).getLsbD (7 - col)).toNat

/-- Byte `k` of sprite entry `n`, read through the bus (R58, R256). -/
def spriteByte (s : State) (n k : Nat) : Byte := s.readByte (0xFE00#16 + BitVec.ofNat 16 (4 * n + k))

/-- The shade of colour index `ci` in palette `pal` (R257). -/
def shadeOf (pal : Byte) (ci : Nat) : Nat := pal.toNat / 4 ^ ci % 4

/-- The store of an r8 operand is not refused (R83). -/
def mayWriteOperand (r : Operand8) (s : State) : Bool :=
  match r with
  | .reg _ => true
  | .atHL => mayWrite s s.hl

/-- `v` is written to an r8 operand that was read before: to the register, or to the byte at HL by one write
after the one read (R83). -/
def operandWritten (r : Operand8) (v : Byte) (s t : State) : Prop :=
  match r with
  | .reg q => onlyRegisters s t ∧ wrote8 s t q v
  | .atHL => stored s (s.noteRead s.hl) s.hl v t ∧ keptRegs s t

/-- `i` takes 4 cycles and changes nothing but the interrupt and execution control, to `irq`. -/
def systemEffect (i : Instr) (s : State) (irq : Irq) : Prop :=
  ∃ t, exec i s = .next t ∧ onlyRegisters { s with irq := irq } t ∧ t.regs = s.regs ∧ t.sp = s.sp ∧
    t.pc = s.pc ∧ t.out.cycles = 4

/-! ### The fetch -/

/-- The state after the reads of `n` instruction bytes at `a`, `a + 1`, … (R14, R69). -/
def noteReads (n : Nat) (a : Word) (s : State) : State :=
  match n with
  | 0 => s
  | n + 1 => noteReads n (a + 1) (s.noteRead a)

/-- The `n` bytes that reads of `a`, `a + 1`, … give, each in the state after the reads before it. -/
def codeBytes (n : Nat) (a : Word) (s : State) : List Byte :=
  match n with
  | 0 => []
  | n + 1 => s.readByte a :: codeBytes n (a + 1) (s.noteRead a)

/-- A step that starts in `s` fetches an instruction: no mark, no idle halted step, no service (R220). -/
def performs (s : State) : Bool :=
  decide (s.fault = none) && decide (s.refused = none) &&
  !(s.irq.halted && decide ((beginStep s).pending = 0)) &&
  !(s.irq.ime && decide ((beginStep s).pending ≠ 0))

/-- A step of `s` is refused with `r`, the caller is left with the state its CPU step began in and the mark,
`pc` as it was, and the next step is refused alike (R15, R235; that the environment's requests stay applied
is log entry 9). -/
def refusedBack (s : State) (r : Refusal) : Prop :=
  step s = .refused r ∧ s.settle = { beginStep s with refused := some r } ∧ s.settle.pc = s.pc ∧
  step s.settle = .refused r

/-! ### The invariant -/

/-- The mode at a line and dot of the running display (R246). -/
def modeAt (ly : Byte) (dot : Nat) : PpuMode :=
  if 144 ≤ ly.toNat then .vBlank
  else if dot < 80 then .oamScan
  else if dot < 252 then .transfer
  else .hBlank

/-- A key of `mem` that names a byte of RAM of a machine with cartridge `c` (R44). -/
def ramKeyExists (c : Cartridge) (k : Nat) : Bool :=
  decide ((0x8000 ≤ k ∧ k < 0xA000) ∨ (0xC000 ≤ k ∧ k < 0xE000) ∨ (0xFE00 ≤ k ∧ k < 0xFEA0) ∨
    (0xFF80 ≤ k ∧ k < 0xFFFF) ∨ (0x10000 ≤ k ∧ k < 0x10000 + c.ramSize))

/-- RAM in canonical form, listing only bytes that exist. -/
def ramWf (c : Cartridge) (m : List Host.Cell) : Bool := Memory.wf m && m.all (fun x => ramKeyExists c x.1)

/-- The audio store in canonical form, listing only its own addresses (R61). -/
def audWf (m : List Host.Cell) : Bool := Memory.wf m && m.all (fun x => isAudioAddr x.1)

/-- The frame buffer in canonical form: rows below 144, each of 160 shades (R45). -/
def frameWf (fb : FrameRows) : Bool :=
  cellsWf blankRow fb && fb.all (fun r => decide (r.1 < 144) && decide (r.2.length = 160))

/-- A cartridge whose header constants are those of its image's header bytes (R66). -/
def Cartridge.wf (c : Cartridge) : Bool :=
  Rom.wf c.image && decide (cartTypeOfByte (c.byte 0x0147) = some c.kind) &&
  decide ((c.byte 0x0148).toNat = c.romCode.val) && decide ((c.byte 0x0149).toNat = c.ramCode.val)

/-- A boot image: at most 256 bytes (R9). -/
def bootWf (b : List Host.Cell) : Bool := Rom.wf b && b.all (fun x => decide (x.1 < 256))

/-- The draws of `P_POWERON` are values of their fields (R271). -/
def PowerOn.wf (c : Cartridge) (d : PowerOn) : Bool := ramWf c d.mem && audWf d.aud && frameWf d.fb

/-- What a machine may be built from (R9). -/
def Setup.wf (u : Setup) : Bool :=
  u.cart.wf && PowerOn.wf u.cart u.draws &&
  match u.boot with
  | none => true
  | some b => bootWf b

/-- The display's position: lines 0..153 of 456 dots, and line 0, dot 0, mode 0 while it is off (R246,
R247). -/
def Ppu.positionOk (p : Ppu) : Bool :=
  if p.lcdc.getLsbD 7 then
    decide (p.dot < 456) && decide (p.ly.toNat ≤ 153) && decide (p.mode = modeAt p.ly p.dot)
  else decide (p.dot = 0) && decide (p.ly = 0) && decide (p.mode = .hBlank)

/-- What holds in every state between two system steps. -/
structure Inv (s : State) : Prop where
  /-- R24. -/
  flagsLow : s.regs.f &&& 0x0F#8 = 0#8
  ram : ramWf s.cart s.mem = true
  aud : audWf s.aud = true
  cart : s.cart.wf = true
  boot : bootWf s.boot = true
  frame : frameWf s.ppu.fb = true
  /-- R246, R247. -/
  position : s.ppu.positionOk = true
  /-- R249. -/
  lycCompared : s.ppu.lycEq = decide (s.ppu.ly = s.ppu.lyc)
  /-- R251. -/
  selected : s.ppu.sel.length ≤ 10 ∧ s.ppu.sel.Pairwise (· < ·) ∧ ∀ n ∈ s.ppu.sel, n < 40
  /-- R229: between steps a pending activation stands at 1. -/
  eiDelay : s.irq.eiDelay ≤ 1
  /-- R229. -/
  eiPending : s.irq.eiDelay ≠ 0 → s.irq.ime = false
  /-- R229: a halted CPU has counted through the HALT's own step. -/
  haltCounted : s.irq.halted = true → s.irq.eiDelay = 0
  /-- R31, R232. -/
  haltBug : s.irq.hbPending = true → s.params.haltBug = true ∧ s.irq.halted = false

/-! ### Runs and their end -/

/-- The state at the boundary after `n` system steps from `s`; none if one of them faults or is refused
(R5, R6). -/
def runSteps (n : Nat) (s : State) : Option State :=
  match n with
  | 0 => some s
  | n + 1 =>
    match step s with
    | .next t => runSteps n t
    | .fault _ => none
    | .refused _ => none

/-- What R7 asks of the boundary at which a run ends: `stop` is `P_STOP_PC` and `i` the instruction that the
claim names there. -/
def endOfRun (stop : Word) (i : Instr) (s : State) : Bool :=
  decide (s.pc = stop) && !s.irq.halted && decide (s.fault = none) && decide (s.refused = none) &&
  match decode (codeBytes 3 stop s) with
  | .ok (j, _) => decide (j = i)
  | .error _ => false

/-- The run from `s` ends after `n` system steps, in `t`: the FIRST boundary at which R7's conditions hold.
The boundary before the first step counts (log entry 19). -/
def endsRun (stop : Word) (i : Instr) (s : State) (n : Nat) (t : State) : Prop :=
  runSteps n s = some t ∧ endOfRun stop i t = true ∧
  ∀ k < n, ∀ u, runSteps k s = some u → endOfRun stop i u = false

end Sys2Proof.Machine
end

