-- ==== Sys2Proof/Certificates/Slice0/Obligations.lean ====
section
/-! DEFINITION. The statements for the provers. `s` is the state an instruction is performed in, with
`s.pc` already the address after the instruction (30_encoding R93); `t` is the state after it. -/

open Sys2Proof Sys2Proof.Machine

/-! ### Encoding (30_encoding) -/

/-- Derived from 30_encoding sections 1 to 4: no bit of any well-formed instruction's encoding is lost. -/
def Obligations.DecodeEncode : Prop :=
  ∀ (i : Instr) (r : List Byte), i.wellFormed = true → decode (encode i ++ r) = .ok (i, r)

/-- Derived from R81, R89, R90: the decoder reads only well-formed instructions, each word of the stream
has one meaning, and a byte string is rejected only where it ends inside an instruction. -/
def Obligations.EncodeDecode : Prop :=
  ∀ bs : List Byte,
    (∀ i r, decode bs = .ok (i, r) →
      i.wellFormed = true ∧ encode i ++ r = bs ∧ (encode i).length = instrLength (bs.headD 0#8)) ∧
    (∀ e, decode bs = .error e → bs = [] ∨ bs.length < instrLength (bs.headD 0#8))

/-- Sanity: words written from the rows of R89 and R90. -/
def Obligations.DecodeWords : Prop :=
  decode [0b01111000#8] = .ok (.ld_A_B, []) ∧
  decode [0b00111110#8, 0x80#8] = .ok (.ld_A_n8 0x80#8, []) ∧
  decode [0b11101010#8, 0x34#8, 0xC2#8] = .ok (.ld_ata16_A 0xC234#16, []) ∧
  decode [0b11110001#8] = .ok (.pop_AF, []) ∧
  decode [0b10011111#8] = .ok (.sbc_A_A, []) ∧
  decode [0b00111001#8] = .ok (.add_HL_SP, []) ∧
  decode [0b00011111#8] = .ok (.rra, []) ∧
  decode [0b11001011#8, 0b11111110#8] = .ok (.set_7_atHL, []) ∧
  decode [0b00100000#8, 0xFB#8] = .ok (.jr_NZ_e8 0xFB#8, []) ∧
  decode [0b11101111#8] = .ok (.rst_28, []) ∧
  decode [0b01110110#8] = .ok (.halt, []) ∧
  decode [0b11010011#8] = .ok (.illegal_D3, [])

/-- Derived from R90: the escape byte's row does what the row that its operand selects does, and completes
where that one's store is not refused. -/
def Obligations.PrefixedRow : Prop :=
  ∀ (op : Byte) (s : State),
    exec (.prefixCB op) s = exec (decodePrefixed op) s ∧
    (storesAllowed (decodePrefixed op) s = true → ∃ t, exec (.prefixCB op) s = .next t)

/-! ### Loads and stack transfers (40_load) -/

/-- R102, R103, R119, R121: loads of a register or a pair from a register or an immediate. -/
def Obligations.LoadRegister : Prop :=
  ∀ s : State,
    (∀ r q, ∃ t, exec (Instr.ldRR r q) s = .next t ∧ onlyRegisters s t ∧ wrote8 s t r (s.reg q) ∧
      t.regs.f = s.regs.f ∧ t.out.cycles = 4) ∧
    (∀ r n, ∃ t, exec (Instr.ldRN r n) s = .next t ∧ onlyRegisters s t ∧ wrote8 s t r n ∧
      t.regs.f = s.regs.f ∧ t.out.cycles = 8) ∧
    (∀ rr nn, ∃ t, exec (Instr.ldR16N rr nn) s = .next t ∧ onlyRegisters s t ∧ wrote16 s t rr nn ∧
      t.regs.f = s.regs.f ∧ t.out.cycles = 12) ∧
    (∃ t, exec .ld_SP_HL s = .next t ∧ onlyRegisters s t ∧ wrote16 s t .sp s.hl ∧
      t.regs.f = s.regs.f ∧ t.out.cycles = 8)

/-- R104, R107, R113, R115, R117: the byte loads. -/
def Obligations.LoadFromMemory : Prop :=
  ∀ s : State,
    (∀ r, loadsByte (Instr.ldRHl r) s r s.hl 8) ∧
    loadsByte .ld_A_atBC s .a s.bc 8 ∧ loadsByte .ld_A_atDE s .a s.de 8 ∧
    (∀ nn, loadsByte (.ld_A_ata16 nn) s .a nn 16) ∧
    (∀ n : Byte, loadsByte (.ldh_A_ata8 n) s .a (0xFF00#16 + n.zeroExtend 16) 12) ∧
    loadsByte .ld_A_atC s .a (0xFF00#16 + s.regs.c.zeroExtend 16) 8

/-- R105, R106, R108, R114, R116, R118: the byte stores. -/
def Obligations.StoreToMemory : Prop :=
  ∀ s : State,
    (∀ r, storesByte (Instr.ldHlR r) s s.hl (s.reg r) 8) ∧
    (∀ n, storesByte (.ld_atHL_n8 n) s s.hl n 12) ∧
    storesByte .ld_atBC_A s s.bc s.regs.a 8 ∧ storesByte .ld_atDE_A s s.de s.regs.a 8 ∧
    (∀ nn, storesByte (.ld_ata16_A nn) s nn s.regs.a 16) ∧
    (∀ n : Byte, storesByte (.ldh_ata8_A n) s (0xFF00#16 + n.zeroExtend 16) s.regs.a 12) ∧
    storesByte .ld_atC_A s (0xFF00#16 + s.regs.c.zeroExtend 16) s.regs.a 8

/-- R109 to R112: the loads and stores at HL that then move HL by one; the access uses the old HL. -/
def Obligations.LoadStoreAndStep : Prop :=
  ∀ (s : State) (i : Instr) (hl : Word),
    ((i = .ld_A_atHLI ∧ hl = s.hl + 1) ∨ (i = .ld_A_atHLD ∧ hl = s.hl - 1) →
      ∃ t, exec i s = .next t ∧ onlyRegisters (s.noteRead s.hl) t ∧ t.regs.a = s.readByte s.hl ∧ t.hl = hl ∧
        t.bc = s.bc ∧ t.de = s.de ∧ t.sp = s.sp ∧ t.pc = s.pc ∧ t.regs.f = s.regs.f ∧ t.out.cycles = 8 ∧
        memoryKept s t []) ∧
    ((i = .ld_atHLI_A ∧ hl = s.hl + 1) ∨ (i = .ld_atHLD_A ∧ hl = s.hl - 1) →
      (mayWrite s s.hl = true →
        ∃ t, exec i s = .next t ∧ stored s s s.hl s.regs.a t ∧ wrote16 s t .hl hl ∧ t.regs.f = s.regs.f ∧
          t.out.cycles = 8) ∧
      (mayWrite s s.hl = false → exec i s = .refused .dmaUnmodelled))

/-- R120: LD (a16),SP stores the low byte at the address and then the high byte at the next one. -/
def Obligations.StoreStackPointer : Prop :=
  ∀ (a : Word) (s : State), mayWrite s a = true → mayWrite s (a + 1) = true →
    ∃ u w t, exec (.ld_ata16_SP a) s = .next t ∧ memWrite a (loByte s.sp) s = .next u ∧
      memWrite (a + 1) (hiByte s.sp) u = .next w ∧ onlyRegisters w t ∧ keptRegs s t ∧
      t.regs.f = s.regs.f ∧ t.out.cycles = 20 ∧ memoryKept s t [a, a + 1] ∧
      holds s t a (loByte s.sp) ∧ holds s t (a + 1) (hiByte s.sp)

/-- R122, R100: PUSH. -/
def Obligations.PushRegister : Prop :=
  ∀ (rr : StkReg) (s : State),
    (mayPush s = true → ∃ t, exec (Instr.push rr) s = .next t ∧ pushed s (s.stkReg rr) t ∧ t.pc = s.pc ∧
      t.out.cycles = 16) ∧
    (mayPush s = false → exec (Instr.push rr) s = .refused .dmaUnmodelled)

/-- R123, R124, R101: POP BC, DE and HL, and POP AF, which writes all four flags from the popped low byte and
keeps F's low nibble 0. -/
def Obligations.PopRegister : Prop :=
  ∀ s : State,
    (∀ (i : Instr) (rr : Reg16),
      (i = .pop_BC ∧ rr = .bc) ∨ (i = .pop_DE ∧ rr = .de) ∨ (i = .pop_HL ∧ rr = .hl) →
      ∃ t, exec i s = .next t ∧ onlyRegisters (afterPop s) t ∧ t.sp = s.sp + 2 ∧
        (∀ q, q ≠ .sp → t.reg16 q = if q = rr then popWord s else s.reg16 q) ∧
        t.regs.a = s.regs.a ∧ t.regs.f = s.regs.f ∧ t.pc = s.pc ∧ t.out.cycles = 12 ∧ memoryKept s t []) ∧
    (∃ t, exec .pop_AF s = .next t ∧ onlyRegisters (afterPop s) t ∧ t.sp = s.sp + 2 ∧
      t.regs.a = hiByte (popWord s) ∧ t.regs.f = loByte (popWord s) &&& 0xF0#8 ∧
      flagsAre t ((loByte (popWord s)).getLsbD 7) ((loByte (popWord s)).getLsbD 6)
        ((loByte (popWord s)).getLsbD 5) ((loByte (popWord s)).getLsbD 4) ∧
      t.bc = s.bc ∧ t.de = s.de ∧ t.hl = s.hl ∧ t.pc = s.pc ∧ t.out.cycles = 12 ∧ memoryKept s t [])

/-! ### 8-bit arithmetic and logic (41_alu8) -/

/-- R135 to R142, with the laws of R131 and R132: the eight ALU operations on every operand form. -/
def Obligations.AluOperations : Prop :=
  ∀ (op : Alu) (s : State),
    (∀ r, ∃ t, exec (Instr.aluR op r) s = .next t ∧ onlyRegisters (operandState r s) t ∧
      aluEffect op s.regs.a (operandValue r s) s.flags.c s t ∧
      t.out.cycles = (if r = .atHL then 8 else 4) ∧ memoryKept s t []) ∧
    (∀ n, ∃ t, exec (Instr.aluN op n) s = .next t ∧ onlyRegisters s t ∧
      aluEffect op s.regs.a n s.flags.c s t ∧ t.out.cycles = 8)

/-- R143, R144: INC r8 and DEC r8 on a register and on (HL), where it is one read and then one write. -/
def Obligations.IncDecByte : Prop :=
  ∀ (r : Operand8) (s : State), mayWriteOperand r s = true →
    let v := operandValue r s
    (∃ t, exec (Instr.incR8 r) s = .next t ∧ operandWritten r (v + 1) s t ∧
      flagsAre t (decide (v = 0xFF)) false (decide (v.toNat % 16 = 15)) s.flags.c ∧
      t.out.cycles = (if r = .atHL then 12 else 4)) ∧
    (∃ t, exec (Instr.decR8 r) s = .next t ∧ operandWritten r (v - 1) s t ∧
      flagsAre t (decide (v = 0x01)) true (decide (v.toNat % 16 = 0)) s.flags.c ∧
      t.out.cycles = (if r = .atHL then 12 else 4))

/-- R145: DAA. -/
def Obligations.DecimalAdjust : Prop :=
  ∀ s : State,
    let lo := s.flags.h || (!s.flags.n && decide (9 < s.regs.a.toNat % 16))
    let hi := s.flags.c || (!s.flags.n && decide (0x99 < s.regs.a.toNat))
    let u : Byte := if lo then (if hi then 0x66 else 0x06) else (if hi then 0x60 else 0x00)
    let r : Byte := if s.flags.n then s.regs.a - u else s.regs.a + u
    ∃ t, exec .daa s = .next t ∧ onlyRegisters s t ∧ wrote8 s t .a r ∧
      flagsAre t (decide (r = 0)) s.flags.n false hi ∧ t.out.cycles = 4

/-- Derived from R135 to R138 and R145: DAA after ADD, ADC, SUB or SBC of two packed decimal numbers gives
the decimal sum or difference modulo 100, with C the decimal carry or borrow. -/
def Obligations.DecimalArithmetic : Prop :=
  ∀ (x y : Nat) (s t u : State), x < 100 → y < 100 → s.regs.a = bcd x →
    exec .daa t = .next u →
    (exec (.add_A_n8 (bcd y)) s = .next t →
      u.regs.a = bcd ((x + y) % 100) ∧ u.flags.c = decide (100 ≤ x + y)) ∧
    (exec (.adc_A_n8 (bcd y)) s = .next t →
      u.regs.a = bcd ((x + y + s.flags.c.toNat) % 100) ∧ u.flags.c = decide (100 ≤ x + y + s.flags.c.toNat)) ∧
    (exec (.sub_A_n8 (bcd y)) s = .next t →
      u.regs.a = bcd ((x + 100 - y) % 100) ∧ u.flags.c = decide (x < y)) ∧
    (exec (.sbc_A_n8 (bcd y)) s = .next t →
      u.regs.a = bcd ((x + 100 - y + 100 - s.flags.c.toNat) % 100) ∧
      u.flags.c = decide (x < y + s.flags.c.toNat))

/-- R146, R147, R148: CPL, SCF and CCF. -/
def Obligations.AccumulatorFlags : Prop :=
  ∀ s : State,
    (∃ t, exec .cpl s = .next t ∧ onlyRegisters s t ∧ wrote8 s t .a (~~~s.regs.a) ∧
      flagsAre t s.flags.z true true s.flags.c ∧ t.out.cycles = 4) ∧
    (∃ t, exec .scf s = .next t ∧ onlyRegisters s t ∧ keptRegs s t ∧ flagsAre t s.flags.z false false true ∧
      t.out.cycles = 4) ∧
    (∃ t, exec .ccf s = .next t ∧ onlyRegisters s t ∧ keptRegs s t ∧
      flagsAre t s.flags.z false false (!s.flags.c) ∧ t.out.cycles = 4)

/-! ### 16-bit arithmetic (42_alu16) -/

/-- R160, R161: INC r16 and DEC r16 write no flag. -/
def Obligations.IncDecPair : Prop :=
  ∀ (rr : Reg16) (s : State),
    (∃ t, exec (Instr.incR16 rr) s = .next t ∧ onlyRegisters s t ∧ wrote16 s t rr (s.reg16 rr + 1) ∧
      t.regs.f = s.regs.f ∧ t.out.cycles = 8) ∧
    (∃ t, exec (Instr.decR16 rr) s = .next t ∧ onlyRegisters s t ∧ wrote16 s t rr (s.reg16 rr - 1) ∧
      t.regs.f = s.regs.f ∧ t.out.cycles = 8)

/-- R162, R163, R164: ADD HL,r16, with Z kept and H from bit 11; ADD SP,e8 and LD HL,SP+e8, with H and C from the
unsigned addition of the low byte of SP and the offset byte, whatever the offset's sign. -/
def Obligations.PairAddition : Prop :=
  ∀ s : State,
    (∀ rr, ∃ t, exec (Instr.addHlR16 rr) s = .next t ∧ onlyRegisters s t ∧
      wrote16 s t .hl (s.hl + s.reg16 rr) ∧
      flagsAre t s.flags.z false (decide (0xFFF < s.hl.toNat % 0x1000 + (s.reg16 rr).toNat % 0x1000))
        (decide (0xFFFF < s.hl.toNat + (s.reg16 rr).toNat)) ∧ t.out.cycles = 8) ∧
    (∀ e : Byte,
      let h := decide (0xF < s.sp.toNat % 16 + e.toNat % 16)
      let c := decide (0xFF < s.sp.toNat % 256 + e.toNat)
      (∃ t, exec (.add_SP_e8 e) s = .next t ∧ onlyRegisters s t ∧ wrote16 s t .sp (s.sp + e.signExtend 16) ∧
        flagsAre t false false h c ∧ t.out.cycles = 16) ∧
      (∃ t, exec (.ld_HL_SPe8 e) s = .next t ∧ onlyRegisters s t ∧ wrote16 s t .hl (s.sp + e.signExtend 16) ∧
        flagsAre t false false h c ∧ t.out.cycles = 12))

/-! ### Rotates, shifts and bit operations (43_bitops) -/

/-- R170 to R173: the accumulator rotates clear Z. -/
def Obligations.RotateAccumulator : Prop :=
  ∀ (s : State) (i : Instr) (op : Rot),
    (i = .rlca ∧ op = .rlc) ∨ (i = .rrca ∧ op = .rrc) ∨ (i = .rla ∧ op = .rl) ∨ (i = .rra ∧ op = .rr) →
    ∃ t, exec i s = .next t ∧ onlyRegisters s t ∧ wrote8 s t .a (rotValue op s.regs.a s.flags.c) ∧
      flagsAre t false false false (rotOut op s.regs.a) ∧ t.out.cycles = 4

/-- R174 to R181: the prefixed rotates and shifts on a register and on (HL). -/
def Obligations.RotateOperand : Prop :=
  ∀ (op : Rot) (r : Operand8) (s : State), mayWriteOperand r s = true →
    let w := rotValue op (operandValue r s) s.flags.c
    ∃ t, exec (Instr.rotR op r) s = .next t ∧ operandWritten r w s t ∧
      flagsAre t (decide (w = 0)) false false (rotOut op (operandValue r s)) ∧
      t.out.cycles = (if r = .atHL then 16 else 8)

/-- R182, R183, R184: BIT writes nothing but Z, N and H; RES and SET write the operand with exactly bit `b` 0 or 1
and no flag. -/
def Obligations.SingleBits : Prop :=
  ∀ (b : Fin 8) (r : Operand8) (s : State),
    (∃ t, exec (Instr.bitR b r) s = .next t ∧ onlyRegisters (operandState r s) t ∧ keptRegs s t ∧
      flagsAre t (!(operandValue r s).getLsbD b) false true s.flags.c ∧
      t.out.cycles = (if r = .atHL then 12 else 8) ∧ memoryKept s t []) ∧
    (mayWriteOperand r s = true →
      (∃ t v, exec (Instr.resR b r) s = .next t ∧ operandWritten r v s t ∧
        (∀ k < 8, v.getLsbD k = ((operandValue r s).getLsbD k && decide (k ≠ b.val))) ∧
        t.regs.f = s.regs.f ∧ t.out.cycles = (if r = .atHL then 16 else 8)) ∧
      (∃ t v, exec (Instr.setR b r) s = .next t ∧ operandWritten r v s t ∧
        (∀ k < 8, v.getLsbD k = ((operandValue r s).getLsbD k || decide (k = b.val))) ∧
        t.regs.f = s.regs.f ∧ t.out.cycles = (if r = .atHL then 16 else 8)))

/-! ### Control transfer (44_control) -/

/-- R191 to R195 with R190: the jumps, taken and not taken. -/
def Obligations.Jumps : Prop :=
  ∀ s : State,
    (∀ nn, goesTo (.jp_a16 nn) s nn 16) ∧
    (∀ cc nn, goesTo (Instr.jpCc cc nn) s (if condTrue cc s then nn else s.pc)
      (if condTrue cc s then 16 else 12)) ∧
    goesTo .jp_HL s s.hl 4 ∧
    (∀ e, goesTo (.jr_e8 e) s (s.pc + e.signExtend 16) 12) ∧
    (∀ cc e, goesTo (Instr.jrCc cc e) s (if condTrue cc s then s.pc + e.signExtend 16 else s.pc)
      (if condTrue cc s then 12 else 8))

/-- R196, R197, R201: CALL, CALL cc taken and not taken, and RST. -/
def Obligations.Calls : Prop :=
  ∀ s : State,
    (∀ nn, callsTo (.call_a16 nn) s nn 24) ∧
    (∀ cc nn, (condTrue cc s = true → callsTo (Instr.callCc cc nn) s nn 24) ∧
      (condTrue cc s = false → goesTo (Instr.callCc cc nn) s s.pc 12)) ∧
    (∀ y : Fin 8, callsTo (Instr.rst y) s (BitVec.ofNat 16 (8 * y.val)) 16)

/-- R198, R199, R200: RET, RET cc taken and not taken, and RETI, which also sets IME at once. -/
def Obligations.Returns : Prop :=
  ∀ s : State,
    returnsFrom .ret s 16 ∧
    (∀ cc, (condTrue cc s = true → returnsFrom (Instr.retCc cc) s 20) ∧
      (condTrue cc s = false → goesTo (Instr.retCc cc) s s.pc 8)) ∧
    (∃ t, exec .reti s = .next t ∧ t.pc = popWord s ∧ t.sp = s.sp + 2 ∧ t.regs = s.regs ∧
      t.irq = { s.irq with ime := true, eiDelay := 0 } ∧ t.out.cycles = 16 ∧
      onlyRegisters { afterPop s with irq := t.irq } t ∧ memoryKept s t [])


/-! ### System instructions, the step and interrupts (45_system, 60_exceptions) -/

/-- R210, R211, R213, R214: NOP, HALT, DI and EI. HALT enters the halted state, or arms the halt bug. -/
def Obligations.SystemInstructions : Prop :=
  ∀ s : State,
    systemEffect .nop s s.irq ∧
    systemEffect .di s { s.irq with ime := false, eiDelay := 0 } ∧
    systemEffect .ei s
      (if s.irq.ime = false ∧ s.irq.eiDelay = 0 then { s.irq with eiDelay := 2 } else s.irq) ∧
    systemEffect .halt s
      (if s.params.haltBug = true ∧ s.irq.ime = false ∧
          ∃ i : Fin 5, s.irq.ie.getLsbD i = true ∧ s.irq.ifr.getLsbD i = true
        then { s.irq with hbPending := true } else { s.irq with halted := true })

/-- Derived from R212, R235, R62 and R15: STOP is refused, whatever its second byte and with the halt bug pending
too; a store to 0xFF46 with `P_DMA = refuse` is refused, by an instruction and by a push during servicing. The
caller is left with the state the CPU step began in and the mark, and the next step is refused alike. That the
state R15 restores keeps the environment's requests of that step (`settle` is `beginStep s` with the mark) is
the model's reading: log entry 9. -/
def Obligations.StopRefused : Prop :=
  (∀ (x : Byte) (s : State), exec (.stop x) s = .refused .stopUnmodelled) ∧
  ∀ s : State,
    (performs s = true → (wake (beginStep s)).readByte s.pc = 0x10 → refusedBack s .stopUnmodelled) ∧
    (performs s = true →
      let f := fetchInstr { wake (beginStep s) with start := s.pc }
      storesAllowed f.1 f.2 = false → refusedBack s .dmaUnmodelled) ∧
    (s.fault = none → s.refused = none → s.irq.ime = true → (beginStep s).pending ≠ 0 → mayPush s = false →
      refusedBack s .dmaUnmodelled)

/-- Derived from R215, R91 and R234: the eleven illegal bytes fault at the address they were fetched from, the caller
is left with the state the CPU step began in and the mark, and the next step returns the same fault. Two choices
are the model's: the state restored keeps the environment's requests of that step (log entry 9), and each
illegal byte is an instruction of one byte whose meaning is the fault (log entry 12); `start` is the field of log entry
10. -/
def Obligations.IllegalOpcodes : Prop :=
  ∀ (i : Instr) (b : Byte), illegalByte i = some b →
    encode i = [b] ∧ (∀ s : State, exec i s = .fault (.decodeError s.start b)) ∧
    ∀ s : State, performs s = true → (wake (beginStep s)).readByte s.pc = b →
      step s = .fault (.decodeError s.pc b) ∧
      s.settle = { beginStep s with fault := some (.decodeError s.pc b) } ∧ s.settle.pc = s.pc ∧
      step s.settle = .fault (.decodeError s.pc b)

/-- Derived from R6, R125, R234, R235: every instruction but STOP and the illegal bytes completes wherever its
stores are not refused; the illegal bytes are the only ones that fault, and STOP and a store to 0xFF46 are the
only refusals, always. -/
def Obligations.EveryInstructionCompletes : Prop :=
  ∀ (i : Instr) (s : State),
    (illegalByte i = none → isStop i = false → storesAllowed i s = true → ∃ t, exec i s = .next t) ∧
    (∀ f, exec i s = .fault f ↔ ∃ b, illegalByte i = some b ∧ f = .decodeError s.start b) ∧
    (∀ r, exec i s = .refused r ↔
      (isStop i = true ∧ r = .stopUnmodelled) ∨ (storesAllowed i s = false ∧ r = .dmaUnmodelled))

/-- R283, R284: the count each instruction returns is the one of the opcode table, the larger one exactly
where a conditional instruction's condition holds. -/
def Obligations.CycleCounts : Prop :=
  ∀ (i : Instr) (s t : State), exec i s = .next t → t.out.cycles = tableCycles i s.flags

/-- Derived from R69, R25 and every instruction's rule: the frame of the whole instruction set. -/
def Obligations.InstructionFrame : Prop :=
  ∀ (i : Instr) (s t : State), exec i s = .next t →
    memoryKept s t (storesOf i s) ∧ sameSetting s t ∧ t.start = s.start ∧ t.out.frame = s.out.frame ∧
    t.ppu.sel = s.ppu.sel ∧ t.ppu.fb = s.ppu.fb ∧
    (storesOf i s = [] → t.mem = s.mem ∧ t.aud = s.aud ∧ t.mapper = s.mapper ∧ t.ppu = s.ppu ∧
      t.bootMapped = s.bootMapped ∧ t.irq.ifr = s.irq.ifr ∧ t.irq.ie = s.irq.ie)

/-- R93, R220, R5: a step that performs an instruction performs the one that the bytes at `pc` decode to,
with `pc` past its bytes; then the EI countdown runs and the PPU advances by the count returned. -/
def Obligations.StepRunsDecoded : Prop :=
  ∀ (s : State) (i : Instr) (rest : List Byte), performs s = true → s.irq.hbPending = false →
    let w := { wake (beginStep s) with start := s.pc }
    decode (codeBytes 3 s.pc w) = .ok (i, rest) →
    step s = andThen (exec i { noteReads (3 - rest.length) s.pc w with
        pc := s.pc + BitVec.ofNat 16 (3 - rest.length) })
      fun t => .next (advance t.out.cycles (eiCountdown t))

/-- R232: with the halt bug pending, the first fetch does not move `pc`, so the byte there is fetched
twice. -/
def Obligations.HaltBugFetch : Prop :=
  ∀ (s : State) (i : Instr) (rest : List Byte), performs s = true → s.irq.hbPending = true →
    let w := { wake (beginStep s) with start := s.pc }
    decode (w.readByte s.pc :: codeBytes 2 s.pc (w.noteRead s.pc)) = .ok (i, rest) →
    let u := noteReads (2 - rest.length) s.pc (w.noteRead s.pc)
    step s = andThen (exec i { u with
        pc := s.pc + BitVec.ofNat 16 (2 - rest.length), irq := { u.irq with hbPending := false } })
      fun t => .next (advance t.out.cycles (eiCountdown t))

/-- Derived from R234 and R235: a mark is returned by every later step, and the CPU's state stays as it is. That the
environment's requests still apply is the model's reading (log entry 9). -/
def Obligations.MarksStick : Prop :=
  ∀ s : State,
    (∀ f, s.fault = some f → step s = .fault f ∧ s.settle = beginStep s) ∧
    (∀ r, s.fault = none → s.refused = some r → step s = .refused r ∧ s.settle = beginStep s)

/-- R230, R231: a halted step with no source pending changes no CPU state and lets the PPU advance 4 cycles; a
pending source ends the halted state in the same step, whatever IME is, and the exit adds nothing. -/
def Obligations.HaltedState : Prop :=
  ∀ s : State, s.irq.halted = true →
    (s.fault = none → s.refused = none →
      (∀ i < 5, ((beginStep s).irq.ie.getLsbD i && (beginStep s).irq.ifr.getLsbD i) = false) →
      ∃ t, step s = .next t ∧
        t = advance 4 { beginStep s with out := { cycles := 4, reports := [], frame := none } } ∧
        sameCpu s t ∧ t.mem = s.mem ∧ t.irq.ie = s.irq.ie) ∧
    ((beginStep s).pending ≠ 0 → step s = step { s with irq := { s.irq with halted := false } })

/-- R228, with the source of R223 and R227 and the cost of R233: servicing takes the lowest pending source; it is
refused where a push is (R235). -/
def Obligations.ServiceEntry : Prop :=
  ∀ (s : State) (i : Nat), s.fault = none → s.refused = none → s.irq.ime = true → i < 5 →
    (∀ j ≤ i, ((beginStep s).irq.ie.getLsbD j && (beginStep s).irq.ifr.getLsbD j) = decide (j = i)) →
    (mayPush s = true →
      ∃ p, pushed (beginStep s) (if s.irq.hbPending then s.pc - 1 else s.pc) p ∧
        step s = .next (advance 20 { p with
          pc := 0x0040#16 + BitVec.ofNat 16 (8 * i)
          irq := { p.irq with ime := false, halted := false, hbPending := false,
                              ifr := p.irq.ifr &&& ~~~(1#5 <<< i) }
          out := { p.out with cycles := 20 } })) ∧
    (mayPush s = false → step s = .refused .dmaUnmodelled)

/-- R241: at the start of a step the environment raises requests 2, 3 and 4 and nothing else. -/
def Obligations.EnvironmentRequests : Prop :=
  ∀ (s : State) (e : EnvRequest) (r : List EnvRequest), s.env = e :: r →
    beginStep s = { s with env := r, out := (beginStep s).out,
                           irq := { s.irq with ifr := (beginStep s).irq.ifr } } ∧
    ∀ j < 5, (beginStep s).irq.ifr.getLsbD j =
      (s.irq.ifr.getLsbD j || (decide (j = 2) && e.timer) || (decide (j = 3) && e.serial) ||
        (decide (j = 4) && e.joypad))

/-- Derived from R29, R214, R225 and R229: IME rises only at the end of the step after the one that armed it, or
by RETI; and the step after an EI completes with IME set, unless it executes DI. -/
def Obligations.MasterEnable : Prop :=
  ∀ s t : State, Inv s → step s = .next t →
    (s.irq.ime = false → t.irq.ime = true →
      s.irq.eiDelay = 1 ∨ (fetchInstr { wake (beginStep s) with start := s.pc }).1 = .reti) ∧
    (performs s = true → s.irq.eiDelay = 1 →
      (fetchInstr { wake (beginStep s) with start := s.pc }).1 ≠ .di →
      t.irq.ime = true ∧ t.irq.eiDelay = 0)


/-! ### Memory and the address space (20_memory, 10_state) -/

/-- R51 to R53, R57, R65: what reads of the ROM ranges and of the boot overlay give. -/
def Obligations.RomReads : Prop :=
  ∀ (s : State) (a : Word),
    (a.toNat < 0x100 → s.bootMapped = true → s.readByte a = readCells 0xFF#8 s.boot a.toNat) ∧
    (a.toNat < 0x4000 → ¬(s.bootMapped = true ∧ a.toNat < 0x100) →
      s.readByte a = readCells 0xFF#8 s.cart.image (s.bank0000 * 0x4000 + a.toNat)) ∧
    (0x4000 ≤ a.toNat → a.toNat < 0x8000 →
      s.readByte a = readCells 0xFF#8 s.cart.image (s.bank4000 * 0x4000 + (a.toNat - 0x4000))) ∧
    (s.cart.kind = .romOnly → s.bank0000 = 0 ∧ s.bank4000 = 1)

/-- R54, R55, R56, R58, R67: a byte written to RAM is what its address then reads, nothing that has another RAM
byte or none behind it changes, and memory stays in canonical form; the echo range and work RAM name the same
bytes. -/
def Obligations.RamWriteThenRead : Prop :=
  ∀ (s : State) (a : Word) (v : Byte), Memory.wf s.mem = true →
    (∀ k, s.ramKey a = some k →
      ∃ t, memWrite a v s = .next t ∧ t = { s with mem := t.mem } ∧ Memory.wf t.mem = true ∧
        ∀ b, t.readByte b = if s.ramKey b = some k then v else s.readByte b) ∧
    (0xC000 ≤ a.toNat → a.toNat < 0xDE00 →
      s.readByte (a + 0x2000#16) = s.readByte a ∧
      (∃ t, memWrite a v s = .next t ∧ t.readByte (a + 0x2000#16) = v) ∧
      (∃ t, memWrite (a + 0x2000#16) v s = .next t ∧ t.readByte a = v))

/-- R55, R64: the external-RAM window. -/
def Obligations.ExternalRam : Prop :=
  ∀ (s : State) (a : Word) (v : Byte), 0xA000 ≤ a.toNat → a.toNat < 0xC000 →
    (s.mapper.ramEnable = true → 0 < s.cart.ramSize →
      s.readByte a = s.ram (0x10000 + (s.ramBank * 0x2000 + (a.toNat - 0xA000)) % s.cart.ramSize) ∧
      s.noteRead a = s) ∧
    (s.mapper.ramEnable = false ∨ s.cart.ramSize = 0 →
      s.readByte a = 0xFF ∧ s.noteRead a = s.report [.unmappedRead a] ∧
      memWrite a v s = .next (s.report [.unmappedWrite a]))

/-- R58, R68: reads of the unmapped ranges give 0xFF and report; writes there have no effect and report. -/
def Obligations.UnmappedAccess : Prop :=
  ∀ (s : State) (a : Word) (v : Byte),
    (0xFEA0 ≤ a.toNat ∧ a.toNat ≤ 0xFEFF) ∨ a.toNat = 0xFF03 ∨ (0xFF08 ≤ a.toNat ∧ a.toNat ≤ 0xFF0E) ∨
      a.toNat = 0xFF15 ∨ a.toNat = 0xFF1F ∨ (0xFF27 ≤ a.toNat ∧ a.toNat ≤ 0xFF2F) ∨
      (0xFF4C ≤ a.toNat ∧ a.toNat ≤ 0xFF4F) ∨ (0xFF51 ≤ a.toNat ∧ a.toNat ≤ 0xFF7F) →
    s.readByte a = 0xFF ∧ s.noteRead a = s.report [.unmappedRead a] ∧
    memWrite a v s = .next (s.report [.unmappedWrite a])

/-- R63, R64, R65: the mapper's control writes, and the reports of the indexes that are out of range after one. -/
def Obligations.MapperWrites : Prop :=
  ∀ (s : State) (a : Word) (v : Byte), a.toNat < 0x8000 →
    (s.cart.kind = .romOnly → memWrite a v s = .next s) ∧
    (s.cart.kind ≠ .romOnly → ∃ t l, memWrite a v s = .next t ∧
      t = { s with mapper := t.mapper, out := { s.out with reports := s.out.reports ++ l } } ∧
      t.mapper.ramEnable = (if a.toNat < 0x2000 then decide (v.toNat % 16 = 0xA) else s.mapper.ramEnable) ∧
      t.mapper.romBankLo.toNat =
        (if 0x2000 ≤ a.toNat ∧ a.toNat < 0x4000 then v.toNat % 32 else s.mapper.romBankLo.toNat) ∧
      t.mapper.bankHi.toNat =
        (if 0x4000 ≤ a.toNat ∧ a.toNat < 0x6000 then v.toNat % 4 else s.mapper.bankHi.toNat) ∧
      t.mapper.bankMode = (if 0x6000 ≤ a.toNat then v.getLsbD 0 else s.mapper.bankMode) ∧
      ∀ r, r ∈ l ↔ ((r = .bankOutOfRange t.mapper.raw4000 ∧ s.cart.romBanks ≤ t.mapper.raw4000) ∨
        (r = .bankOutOfRange t.mapper.raw0000 ∧ s.cart.romBanks ≤ t.mapper.raw0000) ∨
        (r = .bankOutOfRange t.mapper.rawRam ∧ 0 < s.cart.ramSize ∧ s.cart.ramBanks ≤ t.mapper.rawRam)))

/-- Derived from R64, R65 and R66: the sizes that the header's codes declare, and the effective banks of MBC1 in both
banking modes: an index inside the declared size is used as formed, one outside it is fitted, and the result lies
inside the size. -/
def Obligations.EffectiveBanks : Prop :=
  ∀ s : State,
    s.cart.romBanks = 2 * 2 ^ s.cart.romCode.val ∧
    s.cart.ramSize = (if s.cart.kind = .romOnly ∨ s.cart.kind = .mbc1 then 0
      else [0, 0x800, 0x2000, 0x8000, 0x20000, 0x10000].getD s.cart.ramCode.val 0) ∧
    s.cart.ramBanks = (if s.cart.ramSize < 0x2000 then 1 else s.cart.ramSize / 0x2000) ∧
    (s.cart.kind ≠ .romOnly →
      let lo := if s.mapper.romBankLo.toNat = 0 then 1 else s.mapper.romBankLo.toNat
      let hi := s.mapper.bankHi.toNat
      let fit := fun b n : Nat =>
        if b < n then b
        else match s.params.bankOor with
          | .wrap => b % n
          | .saturate => n - 1
      s.bank4000 = fit (32 * hi + lo) s.cart.romBanks ∧
      s.bank0000 = fit (if s.mapper.bankMode = true then 32 * hi else 0) s.cart.romBanks ∧
      s.ramBank = fit (if s.mapper.bankMode = true then hi else 0) s.cart.ramBanks ∧
      s.bank4000 < s.cart.romBanks ∧ s.bank0000 < s.cart.romBanks ∧ s.ramBank < s.cart.ramBanks)

/-- R33, R34, R36, R37, R38, R41, R42, R61: what a write to each I/O register leaves there to be read. IF has five
storage bits, STAT four; LY ignores writes; every read of 0xFF50 is 0xFF. -/
def Obligations.RegisterReadback : Prop :=
  ∀ (s : State) (v : Byte),
    (∃ t, memWrite 0xFF0F#16 v s = .next t ∧ t.readByte 0xFF0F#16 = 0xE0#8 ||| v) ∧
    (∃ t, memWrite 0xFFFF#16 v s = .next t ∧ t.readByte 0xFFFF#16 = v) ∧
    (∀ a ∈ [0xFF40#16, 0xFF42#16, 0xFF43#16, 0xFF45#16, 0xFF47#16, 0xFF48#16, 0xFF49#16, 0xFF4A#16, 0xFF4B#16],
      ∃ t, memWrite a v s = .next t ∧ t.readByte a = v) ∧
    (∀ a : Word, isAudioAddr a.toNat = true → Memory.wf s.aud = true →
      ∃ t, memWrite a v s = .next t ∧ t.readByte a = v ∧ t = { s with aud := t.aud }) ∧
    (∃ t, memWrite 0xFF50#16 v s = .next t ∧ t.readByte 0xFF50#16 = 0xFF#8 ∧
      t = { s with bootMapped := s.bootMapped && decide (v = 0) }) ∧
    (∃ t, memWrite 0xFF41#16 v s = .next t ∧ (t.readByte 0xFF41#16).getLsbD 7 = true ∧
      (∀ k, 3 ≤ k → k < 7 → (t.readByte 0xFF41#16).getLsbD k = v.getLsbD k) ∧
      (t.readByte 0xFF41#16).getLsbD 2 = s.ppu.lycEq ∧
      (t.readByte 0xFF41#16).toNat % 4 = (match s.ppu.mode with
        | .hBlank => 0
        | .vBlank => 1
        | .oamScan => 2
        | .transfer => 3) ∧
      t = { s with ppu := { s.ppu with statEn := t.ppu.statEn } }) ∧
    memWrite 0xFF44#16 v s = .next s ∧ s.readByte 0xFF44#16 = s.ppu.ly

/-- R247, R249: writes to LCDC and LYC, and a display that is off does not move. -/
def Obligations.DisplayWrites : Prop :=
  ∀ (s : State) (v : Byte),
    (∃ t, memWrite 0xFF40#16 v s = .next t ∧
      (s.ppu.lcdc.getLsbD 7 = v.getLsbD 7 → t = { s with ppu := { s.ppu with lcdc := v } }) ∧
      (s.ppu.lcdc.getLsbD 7 ≠ v.getLsbD 7 →
        t = { s with ppu := { s.ppu with
                lcdc := v, ly := 0, dot := 0, lycEq := decide (s.ppu.lyc = 0),
                mode := if v.getLsbD 7 = true then .oamScan else .hBlank } }) ∧
      (v.getLsbD 7 = false → ∀ n, advance n t = t)) ∧
    (∃ t, memWrite 0xFF45#16 v s = .next t ∧
      t = { s with ppu := { s.ppu with lyc := v, lycEq := decide (s.ppu.ly = v) } })

/-- Derived from R62: a write to 0xFF46 is refused with `P_DMA = refuse`; with `P_DMA = instant` it copies 160 bytes
from a page to OAM, from page 0xFE onto itself. From page 0xFF it copies what reads of the registers and of high
RAM give: the written value at 0xFF46, and at the external devices the environment's answers, each to the history
with the reads before it. What page 0xFF gives at those two places is the model's reading (log entries 6 and
14). -/
def Obligations.OamDma : Prop :=
  ∀ (s : State) (v : Byte),
    (s.params.dma = .refuse →
      memWrite 0xFF46#16 v s = .refused .dmaUnmodelled ∧ s.readByte 0xFF46#16 = 0xFF) ∧
    (s.params.dma = .instant → Memory.wf s.mem = true →
      ∃ t, memWrite 0xFF46#16 v s = .next t ∧ t.readByte 0xFF46#16 = v ∧ memoryKept s t [0xFF46#16] ∧
        (v.toNat < 0xFF → ∀ i < 160, t.readByte (0xFE00#16 + BitVec.ofNat 16 i) =
          s.readByte (joinBytes v 0#8 + BitVec.ofNat 16 i)) ∧
        (v = 0xFF#8 →
          let devices := [0xFF00#16, 0xFF01#16, 0xFF02#16, 0xFF04#16, 0xFF05#16, 0xFF06#16, 0xFF07#16]
          t.extHistory = s.extHistory ++ devices.map .read ∧
          ∀ i < 160, t.readByte (0xFE00#16 + BitVec.ofNat 16 i) =
            if 0xFF00#16 + BitVec.ofNat 16 i ∈ devices then
              Config.extAnswer (s.extHistory ++ (devices.filter (fun d => d.toNat < 0xFF00 + i)).map .read)
                (0xFF00#16 + BitVec.ofNat 16 i)
            else if i = 0x46 then 0xFF else s.readByte (0xFF00#16 + BitVec.ofNat 16 i)))

/-- Derived from R60 and R69: reads of the external device registers are the environment's answers, and both accesses
are recorded and change nothing else; a read of any address changes nothing but that history and the step's reports,
and no other read. That the history is a list in State is the model's choice (log entry 6). -/
def Obligations.ReadsAndDevices : Prop :=
  ∀ (s : State) (a : Word) (v : Byte),
    (a.toNat = 0xFF00 ∨ a.toNat = 0xFF01 ∨ a.toNat = 0xFF02 ∨ (0xFF04 ≤ a.toNat ∧ a.toNat ≤ 0xFF07) →
      s.readByte a = Config.extAnswer s.extHistory a ∧
      s.noteRead a = { s with extHistory := s.extHistory ++ [.read a] } ∧
      memWrite a v s = .next { s with extHistory := s.extHistory ++ [.write a v] }) ∧
    s.noteRead a = { s with extHistory := (s.noteRead a).extHistory,
                            out := { s.out with reports := (s.noteRead a).out.reports } } ∧
    ∀ b, isExternal b = false → (s.noteRead a).readByte b = s.readByte b

/-! ### Reset (10_state, 70_reset) -/

/-- R46: the reset state without a boot image, for every cartridge, parameter and draw. -/
def Obligations.ResetWithoutBoot : Prop :=
  ∀ u : Setup, u.boot = none →
    let s := State.resetWith u
    s.regs = { a := 0x01, f := 0xB0, b := 0x00, c := 0x13, d := 0x00, e := 0xD8, h := 0x01, l := 0x4D } ∧
    s.flags = { z := true, n := false, h := true, c := true } ∧
    s.sp = 0xFFFE ∧ s.pc = 0x0100 ∧
    s.irq = { ime := false, eiDelay := 0, halted := false, hbPending := false, ifr := 0b00001, ie := 0 } ∧
    s.fault = none ∧ s.refused = none ∧ s.bootMapped = false ∧
    s.mapper = { ramEnable := false, romBankLo := 0, bankHi := 0, bankMode := false } ∧
    s.ppu.mode = .oamScan ∧ s.ppu.dot = 0 ∧ s.ppu.lycEq = true ∧ s.ppu.sel = [] ∧ s.ppu.dma = 0xFF ∧
    s.ppu.obp0 = u.draws.obp0 ∧ s.ppu.obp1 = u.draws.obp1 ∧ s.ppu.fb = u.draws.fb ∧ s.mem = u.draws.mem ∧
    (∀ i < 16, readCells 0#8 s.aud (0xFF30 + i) = readCells 0#8 u.draws.aud (0xFF30 + i)) ∧
    s.readByte 0xFF0F#16 = 0xE1 ∧ s.readByte 0xFF40#16 = 0x91 ∧ s.readByte 0xFF41#16 = 0x86 ∧
    s.readByte 0xFF44#16 = 0 ∧ s.readByte 0xFF45#16 = 0 ∧ s.readByte 0xFF47#16 = 0xFC ∧
    s.readByte 0xFF42#16 = 0 ∧ s.readByte 0xFF43#16 = 0 ∧ s.readByte 0xFF4A#16 = 0 ∧ s.readByte 0xFF4B#16 = 0 ∧
    (∀ p ∈ [(0xFF10#16, 0x80#8), (0xFF11#16, 0xBF#8), (0xFF12#16, 0xF3#8), (0xFF13#16, 0xFF#8),
      (0xFF14#16, 0xBF#8), (0xFF16#16, 0x3F#8), (0xFF17#16, 0x00#8), (0xFF18#16, 0xFF#8), (0xFF19#16, 0xBF#8),
      (0xFF1A#16, 0x7F#8), (0xFF1B#16, 0xFF#8), (0xFF1C#16, 0x9F#8), (0xFF1D#16, 0xFF#8), (0xFF1E#16, 0xBF#8),
      (0xFF20#16, 0xFF#8), (0xFF21#16, 0x00#8), (0xFF22#16, 0x00#8), (0xFF23#16, 0xBF#8), (0xFF24#16, 0x77#8),
      (0xFF25#16, 0xF3#8), (0xFF26#16, 0xF1#8)], s.readByte p.1 = p.2)

/-- R47: the reset state with a boot image, for every draw. -/
def Obligations.ResetWithBoot : Prop :=
  ∀ (u : Setup) (img : List Host.Cell), u.boot = some img →
    let s := State.resetWith u
    s.pc = 0x0000 ∧ s.bootMapped = true ∧ s.boot = img ∧
    s.irq = { ime := false, eiDelay := 0, halted := false, hbPending := false, ifr := 0, ie := 0 } ∧
    s.fault = none ∧ s.refused = none ∧ s.ppu.lcdc = 0 ∧ s.ppu.mode = .hBlank ∧ s.ppu.dot = 0 ∧ s.ppu.ly = 0 ∧
    s.ppu.lycEq = true ∧ s.ppu.statEn = 0 ∧ s.ppu.scy = 0 ∧ s.ppu.scx = 0 ∧ s.ppu.lyc = 0 ∧ s.ppu.wy = 0 ∧
    s.ppu.wx = 0 ∧ s.mapper = { ramEnable := false, romBankLo := 0, bankHi := 0, bankMode := false } ∧
    s.regs = { u.draws.regs with f := u.draws.regs.f &&& 0xF0#8 } ∧ s.sp = u.draws.sp ∧ s.mem = u.draws.mem ∧
    s.aud = u.draws.aud ∧ s.ppu.fb = u.draws.fb ∧ s.ppu.bgp = u.draws.bgp ∧ s.ppu.obp0 = u.draws.obp0 ∧
    s.ppu.obp1 = u.draws.obp1 ∧ s.ppu.dma = u.draws.dma

/-! ### The PPU (60_exceptions R245 to R259) -/

/-- R246, R248: with the display on, a tick moves the position by one dot in a frame of 154 lines of 456, and the
mode is the one of the new position. -/
def Obligations.TickPosition : Prop :=
  ∀ s : State, s.ppu.positionOk = true → s.ppu.lcdc.getLsbD 7 = true →
    let t := tick s
    456 * t.ppu.ly.toNat + t.ppu.dot = (456 * s.ppu.ly.toNat + s.ppu.dot + 1) % 70224 ∧ t.ppu.dot < 456 ∧
    t.ppu.mode = modeAt t.ppu.ly t.ppu.dot ∧ t.ppu.lcdc = s.ppu.lcdc

/-- R245, R248: after 70,224 cycles with the display on the PPU is back at the same line, dot and mode. -/
def Obligations.FramePeriod : Prop :=
  ∀ s : State, s.ppu.positionOk = true → s.ppu.lcdc.getLsbD 7 = true →
    (advance 70224 s).ppu.ly = s.ppu.ly ∧ (advance 70224 s).ppu.dot = s.ppu.dot ∧
    (advance 70224 s).ppu.mode = s.ppu.mode

/-- R248, R249, R250, R258: what one tick requests. VBlank exactly at the entry to line 144; STAT at an entry to
mode 0, 1 or 2 or at a compare that finds LY = LYC, each where its enable bit is set; the frame is given out
at the entry to line 144. -/
def Obligations.TickRequests : Prop :=
  ∀ s : State, s.ppu.positionOk = true → s.ppu.lcdc.getLsbD 7 = true →
    let t := tick s
    let newLine := decide (t.ppu.dot = 0)
    let vblank := newLine && decide (t.ppu.ly = 144)
    t.irq = { s.irq with ifr := t.irq.ifr } ∧
    t.irq.ifr.getLsbD 0 = (s.irq.ifr.getLsbD 0 || vblank) ∧
    t.irq.ifr.getLsbD 1 = (s.irq.ifr.getLsbD 1 ||
      (s.ppu.statEn.getLsbD 3 && newLine && decide (t.ppu.ly = s.ppu.lyc)) ||
      (s.ppu.statEn.getLsbD 2 && newLine && decide (t.ppu.ly.toNat < 144)) ||
      (s.ppu.statEn.getLsbD 1 && vblank) ||
      (s.ppu.statEn.getLsbD 0 && decide (t.ppu.dot = 252) && decide (t.ppu.ly.toNat < 144))) ∧
    (∀ j, 2 ≤ j → t.irq.ifr.getLsbD j = s.irq.ifr.getLsbD j) ∧
    t.out.frame = (if vblank = true then some s.ppu.fb else s.out.frame) ∧
    (newLine = true → t.ppu.lycEq = decide (t.ppu.ly = s.ppu.lyc))

/-- R77, R259: the PPU writes no memory, no register of the CPU and no register that a program sets; of IF it writes
bits 0 and 1 alone. -/
def Obligations.PpuWritesOnly : Prop :=
  ∀ (n : Nat) (s : State),
    let t := advance n s
    t = { s with irq := { s.irq with ifr := t.irq.ifr }, out := { s.out with frame := t.out.frame },
                 ppu := { s.ppu with ly := t.ppu.ly, dot := t.ppu.dot, mode := t.ppu.mode,
                                     lycEq := t.ppu.lycEq, sel := t.ppu.sel, fb := t.ppu.fb } } ∧
    ∀ j, 2 ≤ j → t.irq.ifr.getLsbD j = s.irq.ifr.getLsbD j

/-- R251: the OAM scan selects, in table order, the first ten sprites that cover the line, at the end of mode
2 of a visible line; every other tick, and every tick with the display off, keeps the selection (R246, R247). -/
def Obligations.OamScan : Prop :=
  ∀ s : State,
    let h := if s.ppu.lcdc.getLsbD 2 = true then 16 else 8
    let covers := fun n : Nat =>
      decide ((spriteByte s n 0).toNat ≤ s.ppu.ly.toNat + 16 ∧
        s.ppu.ly.toNat + 16 < (spriteByte s n 0).toNat + h)
    s.oamSelect.length = min 10 ((List.range 40).countP covers) ∧ s.oamSelect.Pairwise (· < ·) ∧
    (∀ n ∈ s.oamSelect, n < 40 ∧ covers n = true) ∧
    (∀ m < 40, covers m = true → m ∉ s.oamSelect →
      s.oamSelect.length = 10 ∧ ∀ n ∈ s.oamSelect, n < m) ∧
    (tick s).ppu.sel =
      if s.ppu.lcdc.getLsbD 7 = true ∧ s.ppu.ly.toNat < 144 ∧ s.ppu.dot = 79 then s.oamSelect else s.ppu.sel

/-- R252: at the entry to mode 3 of a visible line the whole row LY is drawn, from what stands in memory and
in the registers then, and no other row; no other tick draws; past the visible lines and with the display off none does
(R246, R247). -/
def Obligations.LineDrawn : Prop :=
  ∀ s : State,
    let draws := s.ppu.lcdc.getLsbD 7 = true ∧ s.ppu.ly.toNat < 144 ∧ s.ppu.dot = 79
    (draws → frameWf s.ppu.fb = true →
      let u := { s with ppu := { s.ppu with dot := 80, mode := .transfer, sel := s.oamSelect } }
      (readCells blankRow (tick s).ppu.fb s.ppu.ly.toNat).length = 160 ∧
      (∀ x < 160, (readCells blankRow (tick s).ppu.fb s.ppu.ly.toNat).getD x 0 = u.pixel x) ∧
      ∀ k, k ≠ s.ppu.ly.toNat → readCells blankRow (tick s).ppu.fb k = readCells blankRow s.ppu.fb k) ∧
    (¬draws → (tick s).ppu.fb = s.ppu.fb)

/-- R253, R254, R255: the background's and the window's colour index of a pixel, from the bytes that the bus
gives at the addresses of the map and of the tile data. -/
def Obligations.BackgroundAndWindow : Prop :=
  ∀ (s : State) (x : Nat), s.ppu.ly.toNat < 144 → x < 160 →
    (¬(s.ppu.lcdc.getLsbD 5 = true ∧ s.ppu.wy.toNat ≤ s.ppu.ly.toNat ∧ s.ppu.wx.toNat ≤ x + 7) →
      let bx := (x + s.ppu.scx.toNat) % 256
      let line := (s.ppu.ly.toNat + s.ppu.scy.toNat) % 256
      let map := if s.ppu.lcdc.getLsbD 3 = true then 0x9C00 else 0x9800
      let tile := s.readByte (BitVec.ofNat 16 (map + line / 8 * 32 + bx / 8))
      (s.bgwinIndex x).toNat = busPixel s (tileAddress s tile (line % 8)) (bx % 8)) ∧
    (s.ppu.lcdc.getLsbD 5 = true ∧ s.ppu.wy.toNat ≤ s.ppu.ly.toNat ∧ s.ppu.wx.toNat ≤ x + 7 →
      let wx := x + 7 - s.ppu.wx.toNat
      let wy := s.ppu.ly.toNat - s.ppu.wy.toNat
      let map := if s.ppu.lcdc.getLsbD 6 = true then 0x9C00 else 0x9800
      let tile := s.readByte (BitVec.ofNat 16 (map + wy / 8 * 32 + wx / 8))
      (s.bgwinIndex x).toNat = busPixel s (tileAddress s tile (wy % 8)) (wx % 8))

/-- R256, R257: with sprites on, the pixel is that of the last selected sprite that is opaque there, through that
sprite's palette, and the background's or the window's where none is; with sprites off it is always that. -/
def Obligations.SpritePriority : Prop :=
  ∀ (s : State) (x : Nat), (∀ n ∈ s.ppu.sel, n < 40) →
    let h := if s.ppu.lcdc.getLsbD 2 = true then 16 else 8
    let colour := fun n : Nat =>
      let col := x + 8 - (spriteByte s n 1).toNat
      let row := s.ppu.ly.toNat + 16 - (spriteByte s n 0).toNat
      let col := if (spriteByte s n 3).getLsbD 5 = true then 7 - col else col
      let row := if (spriteByte s n 3).getLsbD 6 = true then h - 1 - row else row
      let t := if h = 16 then spriteByte s n 2 &&& 0xFE#8 else spriteByte s n 2
      busPixel s (0x8000#16 + BitVec.ofNat 16 (16 * t.toNat + 2 * row)) col
    let opaqueAt := fun n : Nat =>
      decide ((spriteByte s n 1).toNat ≤ x + 8 ∧ x + 8 < (spriteByte s n 1).toNat + 8) && decide (colour n ≠ 0)
    (s.pixel x).toNat =
      match if s.ppu.lcdc.getLsbD 1 = true then s.ppu.sel.reverse.find? opaqueAt else none with
      | some n => shadeOf (if (spriteByte s n 3).getLsbD 4 = true then s.ppu.obp1 else s.ppu.obp0) (colour n)
      | none => shadeOf s.ppu.bgp (s.bgwinIndex x).toNat

/-! ### Invariants -/

/-- Derived from R246 to R251, R24, R229, R44 and R66: every step keeps the invariant. -/
def Obligations.StepKeepsInv : Prop := ∀ s t : State, Inv s → step s = .next t → Inv t

/-- The invariant holds after reset, for every well-formed cartridge, boot image, parameter and draw. -/
def Obligations.ResetInv : Prop := ∀ u : Setup, u.wf = true → Inv (State.resetWith u)

/-- What holds of every step that answers a next state. Derived from R6, R283, R233, R284 and the cycle lines of the
instruction rules (40_load to 45_system): its count is 4 to 24 and a multiple of 4. Derived from R9, R66, R42 and
R6: it changes no cartridge, boot image or parameter, maps no boot image again and leaves no mark. Derived from
R241: it takes one request set. The model's choices: the parameters stand in State (log entry 5), the request sets
are a list there that is empty once it is exhausted (log entry 7), and the count returned is kept in the field `out`
(log entry 8). -/
def Obligations.EveryStep : Prop :=
  ∀ s t : State, step s = .next t →
    4 ≤ t.out.cycles ∧ t.out.cycles ≤ 24 ∧ t.out.cycles % 4 = 0 ∧
    t.cart = s.cart ∧ t.boot = s.boot ∧ t.params = s.params ∧ t.fault = none ∧ t.refused = none ∧
    (s.bootMapped = false → t.bootMapped = false) ∧ t.env = s.env.tail
end

