-- ==== Sys2Proof/Laws/Cells.lean ====
section
/-! SUPPORT. The sparse store: a read after a write, the other keys, and that a write keeps the canonical
form and the keys it may list. -/

namespace Sys2Proof.Machine

variable {α : Type} [DecidableEq α] (d : α)

/-- A canonical store from `lo` upward lists no key below `lo`. -/
theorem readCells_below {lo k : Nat} {m : List (Nat × α)} (h : cellsWfFrom d lo m = true) (hk : k < lo) :
    readCells d m k = d := by
  induction m generalizing lo with
  | nil => rfl
  | cons x r ih =>
    obtain ⟨j, v⟩ := x
    simp only [cellsWfFrom, Bool.and_eq_true, decide_eq_true_eq] at h
    simp only [readCells]
    rw [if_neg (by omega)]
    exact ih h.2 (by omega)

/-- A read after a write to the same key. -/
theorem readCells_writeCells_same {lo : Nat} {m : List (Nat × α)} (h : cellsWfFrom d lo m = true) (k : Nat)
    (v : α) : readCells d (writeCells d m k v) k = v := by
  induction m generalizing lo with
  | nil => by_cases hv : v = d <;> simp [writeCells, readCells, hv]
  | cons x r ih =>
    obtain ⟨j, w⟩ := x
    simp only [cellsWfFrom, Bool.and_eq_true, decide_eq_true_eq] at h
    simp only [writeCells]
    split
    · next hkj =>
      split
      · next hv =>
        simp only [readCells]
        rw [if_neg (by omega), readCells_below d h.2 (by omega), hv]
      · simp [readCells]
    · split
      · next hkj =>
        split
        · next hv => rw [readCells_below d h.2 (by omega), hv]
        · simp [readCells]
      · next h1 h2 =>
        simp only [readCells]
        rw [if_neg (by omega)]
        exact ih h.2

/-- A write leaves every other key alone. -/
@[simp] theorem readCells_writeCells_other (m : List (Nat × α)) {k q : Nat} (hq : q ≠ k) (v : α) :
    readCells d (writeCells d m k v) q = readCells d m q := by
  induction m with
  | nil =>
    by_cases hv : v = d
    · simp [writeCells, hv]
    · simp [writeCells, readCells, hv, Ne.symm hq]
  | cons x r ih =>
    obtain ⟨j, w⟩ := x
    simp only [writeCells]
    split
    · next hkj => split <;> simp [readCells, Ne.symm hq]
    · split
      · next hkj =>
        subst hkj
        split <;> simp [readCells, Ne.symm hq]
      · simp only [readCells]
        rw [ih]

/-- A write keeps the canonical form. -/
theorem writeCells_wfFrom {lo : Nat} {m : List (Nat × α)} (h : cellsWfFrom d lo m = true) {k : Nat}
    (hk : lo ≤ k) (v : α) : cellsWfFrom d lo (writeCells d m k v) = true := by
  induction m generalizing lo with
  | nil => by_cases hv : v = d <;> simp [writeCells, cellsWfFrom, hv, hk]
  | cons x r ih =>
    obtain ⟨j, w⟩ := x
    have h0 := h
    simp only [cellsWfFrom, Bool.and_eq_true, decide_eq_true_eq] at h
    simp only [writeCells]
    split
    · next hkj =>
      split
      · exact h0
      · next hv => simp [cellsWfFrom, hv, hk, h.1.2, h.2]; omega
    · split
      · next hkj =>
        split
        · next hv =>
          refine cellsWfFrom_mono d h.2 (by omega)
        · next hv => subst hkj; simp [cellsWfFrom, hv, hk, h.2]
      · simp only [cellsWfFrom, Bool.and_eq_true, decide_eq_true_eq]
        exact ⟨h.1, ih h.2 (by omega)⟩
where
  /-- A store canonical from a key is canonical from any key below. -/
  cellsWfFrom_mono {β : Type} [DecidableEq β] (d : β) {lo hi : Nat} {m : List (Nat × β)}
      (h : cellsWfFrom d hi m = true) (hlo : lo ≤ hi) : cellsWfFrom d lo m = true := by
    cases m with
    | nil => rfl
    | cons x r =>
      obtain ⟨j, w⟩ := x
      simp only [cellsWfFrom, Bool.and_eq_true, decide_eq_true_eq] at h ⊢
      exact ⟨⟨by omega, h.1.2⟩, h.2⟩

theorem writeCells_wf {m : List (Nat × α)} (h : cellsWf d m = true) (k : Nat) (v : α) :
    cellsWf d (writeCells d m k v) = true := writeCells_wfFrom d h (Nat.zero_le k) v

/-- A write lists no key but its own and the ones listed before, with their values. -/
theorem mem_writeCells {m : List (Nat × α)} {k : Nat} {v : α} {x : Nat × α} (h : x ∈ writeCells d m k v) :
    x = (k, v) ∨ x ∈ m := by
  induction m with
  | nil =>
    by_cases hv : v = d
    · simp [writeCells, hv] at h
    · simp [writeCells, hv] at h
      exact .inl h
  | cons y r ih =>
    obtain ⟨j, w⟩ := y
    simp only [writeCells] at h
    split at h
    · split at h
      · exact .inr h
      · simpa using h
    · split at h
      · split at h
        · exact .inr (List.mem_cons_of_mem _ h)
        · rcases List.mem_cons.mp h with h | h
          · exact .inl h
          · exact .inr (List.mem_cons_of_mem _ h)
      · rcases List.mem_cons.mp h with h | h
        · exact .inr (by simp [h])
        · exact (ih h).imp id (List.mem_cons_of_mem _)

/-- A property of all listed entries survives a write whose entry has it. -/
theorem writeCells_all {m : List (Nat × α)} {p : Nat × α → Bool} (h : m.all p = true) {k : Nat} {v : α}
    (hp : p (k, v) = true) : (writeCells d m k v).all p = true := by
  rw [List.all_eq_true] at h ⊢
  intro x hx
  rcases mem_writeCells d hx with rfl | hx
  · exact hp
  · exact h x hx

/-- A listed value is what a read gives, in a canonical store. -/
theorem readCells_of_mem {lo : Nat} {m : List (Nat × α)} (h : cellsWfFrom d lo m = true) {k : Nat} {v : α}
    (hm : (k, v) ∈ m) : readCells d m k = v := by
  induction m generalizing lo with
  | nil => cases hm
  | cons x r ih =>
    obtain ⟨j, w⟩ := x
    simp only [cellsWfFrom, Bool.and_eq_true, decide_eq_true_eq] at h
    rcases List.mem_cons.mp hm with hm | hm
    · cases hm; simp [readCells]
    · simp only [readCells]
      split
      · next hj =>
        subst hj
        have h1 := readCells_below d h.2 (Nat.lt_succ_self j)
        rw [ih h.2 hm] at h1
        exact absurd h1 (cellsWfFrom_ne h.2 hm)
      · exact ih h.2 hm
where
  /-- No listed value is the value of an unlisted key. -/
  cellsWfFrom_ne {β : Type} [DecidableEq β] {d : β} {lo : Nat} {m : List (Nat × β)} {k : Nat} {v : β}
      (h : cellsWfFrom d lo m = true) (hm : (k, v) ∈ m) : v ≠ d := by
    induction m generalizing lo with
    | nil => cases hm
    | cons x r ih =>
      obtain ⟨j, w⟩ := x
      simp only [cellsWfFrom, Bool.and_eq_true, decide_eq_true_eq] at h
      rcases List.mem_cons.mp hm with hm | hm
      · cases hm; exact h.1.2
      · exact ih h.2 hm

end Sys2Proof.Machine
end

