-- ==== Sys2Proof/Laws/State.lean ====
section
/-! SUPPORT. What each small update of the state leaves in each field, by name, so that no proof unfolds a
record update; and the bit laws of bytes, words and flags. -/

namespace Sys2Proof.Machine

variable (s : State)

@[simp] theorem cost_keeps (n : Nat) :
    (s.cost n).regs = s.regs ∧ (s.cost n).sp = s.sp ∧ (s.cost n).pc = s.pc ∧
    (s.cost n).start = s.start ∧ (s.cost n).irq = s.irq ∧ (s.cost n).ppu = s.ppu ∧
    (s.cost n).mapper = s.mapper ∧ (s.cost n).bootMapped = s.bootMapped ∧ (s.cost n).mem = s.mem ∧
    (s.cost n).aud = s.aud ∧ (s.cost n).cart = s.cart ∧ (s.cost n).boot = s.boot ∧
    (s.cost n).params = s.params ∧ (s.cost n).env = s.env ∧ (s.cost n).extHistory = s.extHistory ∧
    (s.cost n).fault = s.fault ∧ (s.cost n).refused = s.refused := by
  exact ⟨rfl, rfl, rfl, rfl, rfl, rfl, rfl, rfl, rfl, rfl, rfl, rfl, rfl, rfl, rfl, rfl, rfl⟩

@[simp] theorem report_keeps (r : List Report) :
    (s.report r).regs = s.regs ∧ (s.report r).sp = s.sp ∧ (s.report r).pc = s.pc ∧
    (s.report r).start = s.start ∧ (s.report r).irq = s.irq ∧ (s.report r).ppu = s.ppu ∧
    (s.report r).mapper = s.mapper ∧ (s.report r).bootMapped = s.bootMapped ∧ (s.report r).mem = s.mem ∧
    (s.report r).aud = s.aud ∧ (s.report r).cart = s.cart ∧ (s.report r).boot = s.boot ∧
    (s.report r).params = s.params ∧ (s.report r).env = s.env ∧ (s.report r).extHistory = s.extHistory ∧
    (s.report r).fault = s.fault ∧ (s.report r).refused = s.refused := by
  exact ⟨rfl, rfl, rfl, rfl, rfl, rfl, rfl, rfl, rfl, rfl, rfl, rfl, rfl, rfl, rfl, rfl, rfl⟩

@[simp] theorem setReg_keeps (r : Reg8) (v : Byte) :
    (s.setReg r v).sp = s.sp ∧ (s.setReg r v).pc = s.pc ∧ (s.setReg r v).start = s.start ∧
    (s.setReg r v).irq = s.irq ∧ (s.setReg r v).ppu = s.ppu ∧ (s.setReg r v).mapper = s.mapper ∧
    (s.setReg r v).bootMapped = s.bootMapped ∧ (s.setReg r v).mem = s.mem ∧ (s.setReg r v).aud = s.aud ∧
    (s.setReg r v).cart = s.cart ∧ (s.setReg r v).boot = s.boot ∧ (s.setReg r v).params = s.params ∧
    (s.setReg r v).env = s.env ∧ (s.setReg r v).extHistory = s.extHistory ∧ (s.setReg r v).fault = s.fault ∧
    (s.setReg r v).refused = s.refused ∧ (s.setReg r v).out = s.out := by
  exact ⟨rfl, rfl, rfl, rfl, rfl, rfl, rfl, rfl, rfl, rfl, rfl, rfl, rfl, rfl, rfl, rfl, rfl⟩

@[simp] theorem setFlags_keeps (g : Flags) :
    (s.setFlags g).sp = s.sp ∧ (s.setFlags g).pc = s.pc ∧ (s.setFlags g).start = s.start ∧
    (s.setFlags g).irq = s.irq ∧ (s.setFlags g).ppu = s.ppu ∧ (s.setFlags g).mapper = s.mapper ∧
    (s.setFlags g).bootMapped = s.bootMapped ∧ (s.setFlags g).mem = s.mem ∧ (s.setFlags g).aud = s.aud ∧
    (s.setFlags g).cart = s.cart ∧ (s.setFlags g).boot = s.boot ∧ (s.setFlags g).params = s.params ∧
    (s.setFlags g).env = s.env ∧ (s.setFlags g).extHistory = s.extHistory ∧ (s.setFlags g).fault = s.fault ∧
    (s.setFlags g).refused = s.refused ∧ (s.setFlags g).out = s.out := by
  exact ⟨rfl, rfl, rfl, rfl, rfl, rfl, rfl, rfl, rfl, rfl, rfl, rfl, rfl, rfl, rfl, rfl, rfl⟩

@[simp] theorem setReg16_keeps (rr : Reg16) (v : Word) :
    (s.setReg16 rr v).pc = s.pc ∧ (s.setReg16 rr v).start = s.start ∧ (s.setReg16 rr v).irq = s.irq ∧
    (s.setReg16 rr v).ppu = s.ppu ∧ (s.setReg16 rr v).mapper = s.mapper ∧ (s.setReg16 rr v).bootMapped = s.bootMapped ∧
    (s.setReg16 rr v).mem = s.mem ∧ (s.setReg16 rr v).aud = s.aud ∧ (s.setReg16 rr v).cart = s.cart ∧
    (s.setReg16 rr v).boot = s.boot ∧ (s.setReg16 rr v).params = s.params ∧ (s.setReg16 rr v).env = s.env ∧
    (s.setReg16 rr v).extHistory = s.extHistory ∧ (s.setReg16 rr v).fault = s.fault ∧ (s.setReg16 rr v).refused = s.refused ∧
    (s.setReg16 rr v).out = s.out := by
  cases rr <;> exact ⟨rfl, rfl, rfl, rfl, rfl, rfl, rfl, rfl, rfl, rfl, rfl, rfl, rfl, rfl, rfl, rfl⟩

@[simp] theorem setStkReg_keeps (rr : StkReg) (v : Word) :
    (s.setStkReg rr v).sp = s.sp ∧ (s.setStkReg rr v).pc = s.pc ∧ (s.setStkReg rr v).start = s.start ∧
    (s.setStkReg rr v).irq = s.irq ∧ (s.setStkReg rr v).ppu = s.ppu ∧ (s.setStkReg rr v).mapper = s.mapper ∧
    (s.setStkReg rr v).bootMapped = s.bootMapped ∧ (s.setStkReg rr v).mem = s.mem ∧ (s.setStkReg rr v).aud = s.aud ∧
    (s.setStkReg rr v).cart = s.cart ∧ (s.setStkReg rr v).boot = s.boot ∧ (s.setStkReg rr v).params = s.params ∧
    (s.setStkReg rr v).env = s.env ∧ (s.setStkReg rr v).extHistory = s.extHistory ∧ (s.setStkReg rr v).fault = s.fault ∧
    (s.setStkReg rr v).refused = s.refused ∧ (s.setStkReg rr v).out = s.out := by
  cases rr <;> exact ⟨rfl, rfl, rfl, rfl, rfl, rfl, rfl, rfl, rfl, rfl, rfl, rfl, rfl, rfl, rfl, rfl, rfl⟩

@[simp] theorem putRam_keeps (k : Nat) (v : Byte) :
    (s.putRam k v).regs = s.regs ∧ (s.putRam k v).sp = s.sp ∧ (s.putRam k v).pc = s.pc ∧
    (s.putRam k v).start = s.start ∧ (s.putRam k v).irq = s.irq ∧ (s.putRam k v).ppu = s.ppu ∧
    (s.putRam k v).mapper = s.mapper ∧ (s.putRam k v).bootMapped = s.bootMapped ∧ (s.putRam k v).aud = s.aud ∧
    (s.putRam k v).cart = s.cart ∧ (s.putRam k v).boot = s.boot ∧ (s.putRam k v).params = s.params ∧
    (s.putRam k v).env = s.env ∧ (s.putRam k v).extHistory = s.extHistory ∧ (s.putRam k v).fault = s.fault ∧
    (s.putRam k v).refused = s.refused ∧ (s.putRam k v).out = s.out := by
  exact ⟨rfl, rfl, rfl, rfl, rfl, rfl, rfl, rfl, rfl, rfl, rfl, rfl, rfl, rfl, rfl, rfl, rfl⟩

@[simp] theorem raise_keeps (i : Nat) :
    (s.raise i).regs = s.regs ∧ (s.raise i).sp = s.sp ∧ (s.raise i).pc = s.pc ∧
    (s.raise i).start = s.start ∧ (s.raise i).ppu = s.ppu ∧ (s.raise i).mapper = s.mapper ∧
    (s.raise i).bootMapped = s.bootMapped ∧ (s.raise i).mem = s.mem ∧ (s.raise i).aud = s.aud ∧
    (s.raise i).cart = s.cart ∧ (s.raise i).boot = s.boot ∧ (s.raise i).params = s.params ∧
    (s.raise i).env = s.env ∧ (s.raise i).extHistory = s.extHistory ∧ (s.raise i).fault = s.fault ∧
    (s.raise i).refused = s.refused ∧ (s.raise i).out = s.out := by
  exact ⟨rfl, rfl, rfl, rfl, rfl, rfl, rfl, rfl, rfl, rfl, rfl, rfl, rfl, rfl, rfl, rfl, rfl⟩

@[simp] theorem raiseIf_keeps (b : Bool) (i : Nat) :
    (s.raiseIf b i).regs = s.regs ∧ (s.raiseIf b i).sp = s.sp ∧ (s.raiseIf b i).pc = s.pc ∧
    (s.raiseIf b i).start = s.start ∧ (s.raiseIf b i).ppu = s.ppu ∧ (s.raiseIf b i).mapper = s.mapper ∧
    (s.raiseIf b i).bootMapped = s.bootMapped ∧ (s.raiseIf b i).mem = s.mem ∧ (s.raiseIf b i).aud = s.aud ∧
    (s.raiseIf b i).cart = s.cart ∧ (s.raiseIf b i).boot = s.boot ∧ (s.raiseIf b i).params = s.params ∧
    (s.raiseIf b i).env = s.env ∧ (s.raiseIf b i).extHistory = s.extHistory ∧ (s.raiseIf b i).fault = s.fault ∧
    (s.raiseIf b i).refused = s.refused ∧ (s.raiseIf b i).out = s.out := by
  cases b <;> exact ⟨rfl, rfl, rfl, rfl, rfl, rfl, rfl, rfl, rfl, rfl, rfl, rfl, rfl, rfl, rfl, rfl, rfl⟩

@[simp] theorem withMode_keeps (m : PpuMode) :
    (s.withMode m).regs = s.regs ∧ (s.withMode m).sp = s.sp ∧ (s.withMode m).pc = s.pc ∧
    (s.withMode m).start = s.start ∧ (s.withMode m).irq = s.irq ∧ (s.withMode m).mapper = s.mapper ∧
    (s.withMode m).bootMapped = s.bootMapped ∧ (s.withMode m).mem = s.mem ∧ (s.withMode m).aud = s.aud ∧
    (s.withMode m).cart = s.cart ∧ (s.withMode m).boot = s.boot ∧ (s.withMode m).params = s.params ∧
    (s.withMode m).env = s.env ∧ (s.withMode m).extHistory = s.extHistory ∧ (s.withMode m).fault = s.fault ∧
    (s.withMode m).refused = s.refused ∧ (s.withMode m).out = s.out := by
  exact ⟨rfl, rfl, rfl, rfl, rfl, rfl, rfl, rfl, rfl, rfl, rfl, rfl, rfl, rfl, rfl, rfl, rfl⟩

@[simp] theorem setMasterEnable_keeps (b : Bool) :
    (s.setMasterEnable b).regs = s.regs ∧ (s.setMasterEnable b).sp = s.sp ∧ (s.setMasterEnable b).pc = s.pc ∧
    (s.setMasterEnable b).start = s.start ∧ (s.setMasterEnable b).ppu = s.ppu ∧ (s.setMasterEnable b).mapper = s.mapper ∧
    (s.setMasterEnable b).bootMapped = s.bootMapped ∧ (s.setMasterEnable b).mem = s.mem ∧ (s.setMasterEnable b).aud = s.aud ∧
    (s.setMasterEnable b).cart = s.cart ∧ (s.setMasterEnable b).boot = s.boot ∧ (s.setMasterEnable b).params = s.params ∧
    (s.setMasterEnable b).env = s.env ∧ (s.setMasterEnable b).extHistory = s.extHistory ∧ (s.setMasterEnable b).fault = s.fault ∧
    (s.setMasterEnable b).refused = s.refused ∧ (s.setMasterEnable b).out = s.out := by
  exact ⟨rfl, rfl, rfl, rfl, rfl, rfl, rfl, rfl, rfl, rfl, rfl, rfl, rfl, rfl, rfl, rfl, rfl⟩

@[simp] theorem acknowledge_keeps (i : Nat) :
    (s.acknowledge i).regs = s.regs ∧ (s.acknowledge i).sp = s.sp ∧ (s.acknowledge i).pc = s.pc ∧
    (s.acknowledge i).start = s.start ∧ (s.acknowledge i).ppu = s.ppu ∧ (s.acknowledge i).mapper = s.mapper ∧
    (s.acknowledge i).bootMapped = s.bootMapped ∧ (s.acknowledge i).mem = s.mem ∧ (s.acknowledge i).aud = s.aud ∧
    (s.acknowledge i).cart = s.cart ∧ (s.acknowledge i).boot = s.boot ∧ (s.acknowledge i).params = s.params ∧
    (s.acknowledge i).env = s.env ∧ (s.acknowledge i).extHistory = s.extHistory ∧ (s.acknowledge i).fault = s.fault ∧
    (s.acknowledge i).refused = s.refused ∧ (s.acknowledge i).out = s.out := by
  exact ⟨rfl, rfl, rfl, rfl, rfl, rfl, rfl, rfl, rfl, rfl, rfl, rfl, rfl, rfl, rfl, rfl, rfl⟩

@[simp] theorem requestDelayedEnable_keeps :
    (s.requestDelayedEnable).regs = s.regs ∧ (s.requestDelayedEnable).sp = s.sp ∧ (s.requestDelayedEnable).pc = s.pc ∧
    (s.requestDelayedEnable).start = s.start ∧ (s.requestDelayedEnable).ppu = s.ppu ∧ (s.requestDelayedEnable).mapper = s.mapper ∧
    (s.requestDelayedEnable).bootMapped = s.bootMapped ∧ (s.requestDelayedEnable).mem = s.mem ∧ (s.requestDelayedEnable).aud = s.aud ∧
    (s.requestDelayedEnable).cart = s.cart ∧ (s.requestDelayedEnable).boot = s.boot ∧ (s.requestDelayedEnable).params = s.params ∧
    (s.requestDelayedEnable).env = s.env ∧ (s.requestDelayedEnable).extHistory = s.extHistory ∧ (s.requestDelayedEnable).fault = s.fault ∧
    (s.requestDelayedEnable).refused = s.refused ∧ (s.requestDelayedEnable).out = s.out := by
  unfold State.requestDelayedEnable; split <;> exact ⟨rfl, rfl, rfl, rfl, rfl, rfl, rfl, rfl, rfl, rfl, rfl, rfl, rfl, rfl, rfl, rfl, rfl⟩

@[simp] theorem noteRead_keeps (a : Word) :
    (s.noteRead a).regs = s.regs ∧ (s.noteRead a).sp = s.sp ∧ (s.noteRead a).pc = s.pc ∧
    (s.noteRead a).start = s.start ∧ (s.noteRead a).irq = s.irq ∧ (s.noteRead a).ppu = s.ppu ∧
    (s.noteRead a).mapper = s.mapper ∧ (s.noteRead a).bootMapped = s.bootMapped ∧ (s.noteRead a).mem = s.mem ∧
    (s.noteRead a).aud = s.aud ∧ (s.noteRead a).cart = s.cart ∧ (s.noteRead a).boot = s.boot ∧
    (s.noteRead a).params = s.params ∧ (s.noteRead a).env = s.env ∧ (s.noteRead a).fault = s.fault ∧
    (s.noteRead a).refused = s.refused := by
  unfold State.noteRead; repeat' split
  all_goals exact ⟨rfl, rfl, rfl, rfl, rfl, rfl, rfl, rfl, rfl, rfl, rfl, rfl, rfl, rfl, rfl, rfl⟩

@[simp] theorem eiCountdown_keeps :
    (eiCountdown s).regs = s.regs ∧ (eiCountdown s).sp = s.sp ∧ (eiCountdown s).pc = s.pc ∧
    (eiCountdown s).start = s.start ∧ (eiCountdown s).ppu = s.ppu ∧ (eiCountdown s).mapper = s.mapper ∧
    (eiCountdown s).bootMapped = s.bootMapped ∧ (eiCountdown s).mem = s.mem ∧ (eiCountdown s).aud = s.aud ∧
    (eiCountdown s).cart = s.cart ∧ (eiCountdown s).boot = s.boot ∧ (eiCountdown s).params = s.params ∧
    (eiCountdown s).env = s.env ∧ (eiCountdown s).extHistory = s.extHistory ∧ (eiCountdown s).fault = s.fault ∧
    (eiCountdown s).refused = s.refused ∧ (eiCountdown s).out = s.out := by
  unfold eiCountdown; split <;> exact ⟨rfl, rfl, rfl, rfl, rfl, rfl, rfl, rfl, rfl, rfl, rfl, rfl, rfl, rfl, rfl, rfl, rfl⟩

@[simp] theorem wake_keeps :
    (wake s).regs = s.regs ∧ (wake s).sp = s.sp ∧ (wake s).pc = s.pc ∧
    (wake s).start = s.start ∧ (wake s).ppu = s.ppu ∧ (wake s).mapper = s.mapper ∧
    (wake s).bootMapped = s.bootMapped ∧ (wake s).mem = s.mem ∧ (wake s).aud = s.aud ∧
    (wake s).cart = s.cart ∧ (wake s).boot = s.boot ∧ (wake s).params = s.params ∧
    (wake s).env = s.env ∧ (wake s).extHistory = s.extHistory ∧ (wake s).fault = s.fault ∧
    (wake s).refused = s.refused ∧ (wake s).out = s.out := by
  exact ⟨rfl, rfl, rfl, rfl, rfl, rfl, rfl, rfl, rfl, rfl, rfl, rfl, rfl, rfl, rfl, rfl, rfl⟩

@[simp] theorem clearOut_keeps :
    (clearOut s).regs = s.regs ∧ (clearOut s).sp = s.sp ∧ (clearOut s).pc = s.pc ∧
    (clearOut s).start = s.start ∧ (clearOut s).irq = s.irq ∧ (clearOut s).ppu = s.ppu ∧
    (clearOut s).mapper = s.mapper ∧ (clearOut s).bootMapped = s.bootMapped ∧ (clearOut s).mem = s.mem ∧
    (clearOut s).aud = s.aud ∧ (clearOut s).cart = s.cart ∧ (clearOut s).boot = s.boot ∧
    (clearOut s).params = s.params ∧ (clearOut s).env = s.env ∧ (clearOut s).extHistory = s.extHistory ∧
    (clearOut s).fault = s.fault ∧ (clearOut s).refused = s.refused := by
  exact ⟨rfl, rfl, rfl, rfl, rfl, rfl, rfl, rfl, rfl, rfl, rfl, rfl, rfl, rfl, rfl, rfl, rfl⟩

@[simp] theorem applyRequests_keeps :
    (applyRequests s).regs = s.regs ∧ (applyRequests s).sp = s.sp ∧ (applyRequests s).pc = s.pc ∧
    (applyRequests s).start = s.start ∧ (applyRequests s).ppu = s.ppu ∧ (applyRequests s).mapper = s.mapper ∧
    (applyRequests s).bootMapped = s.bootMapped ∧ (applyRequests s).mem = s.mem ∧ (applyRequests s).aud = s.aud ∧
    (applyRequests s).cart = s.cart ∧ (applyRequests s).boot = s.boot ∧ (applyRequests s).params = s.params ∧
    (applyRequests s).extHistory = s.extHistory ∧ (applyRequests s).fault = s.fault ∧ (applyRequests s).refused = s.refused ∧
    (applyRequests s).out = s.out := by
  unfold applyRequests; split <;> simp

/-! ### The register file -/

@[simp] theorem reg_setReg (r q : Reg8) (v : Byte) : (s.setReg r v).reg q = if q = r then v else s.reg q := by
  cases r <;> cases q <;> rfl

@[simp] theorem f_setReg (r : Reg8) (v : Byte) : (s.setReg r v).regs.f = s.regs.f := by cases r <;> rfl

@[simp] theorem reg_setFlags (q : Reg8) (g : Flags) : (s.setFlags g).reg q = s.reg q := by cases q <;> rfl

@[simp] theorem f_setFlags (g : Flags) : (s.setFlags g).regs.f = g.toByte := rfl

@[simp] theorem f_setReg16 (rr : Reg16) (v : Word) : (s.setReg16 rr v).regs.f = s.regs.f := by cases rr <;> rfl

/-- The views of a state depend on its registers and SP alone. -/
theorem reg_congr {t : State} (h : t.regs = s.regs) (q : Reg8) : t.reg q = s.reg q := by
  cases q <;> simp [State.reg, h]

@[simp] theorem reg_cost (n : Nat) (q : Reg8) : (s.cost n).reg q = s.reg q := reg_congr _ rfl q

@[simp] theorem reg_noteRead (a : Word) (q : Reg8) : (s.noteRead a).reg q = s.reg q := reg_congr _ (by simp) q

@[simp] theorem reg_putRam (k : Nat) (v : Byte) (q : Reg8) : (s.putRam k v).reg q = s.reg q := reg_congr _ rfl q

theorem hl_congr {t : State} (h : t.regs = s.regs) : t.hl = s.hl := by simp [State.hl, h]

theorem flags_congr {t : State} (h : t.regs = s.regs) : t.flags = s.flags := by simp [State.flags, h]

/-! ### Bytes and words -/

@[simp] theorem hiByte_joinBytes (h l : Byte) : hiByte (joinBytes h l) = h := by
  show BitVec.extractLsb' 8 8 (h ++ l : BitVec (8 + 8)) = h
  ext i hi
  rw [BitVec.getElem_extractLsb', BitVec.getLsbD_append]
  simp [BitVec.getLsbD_eq_getElem hi]

@[simp] theorem loByte_joinBytes (h l : Byte) : loByte (joinBytes h l) = l := by
  show BitVec.extractLsb' 0 8 (h ++ l : BitVec (8 + 8)) = l
  ext i hi
  rw [BitVec.getElem_extractLsb', BitVec.getLsbD_append]
  simp [hi]

@[simp] theorem joinBytes_hi_lo (v : Word) : joinBytes (hiByte v) (loByte v) = v := by
  unfold hiByte joinBytes loByte
  ext i hi
  simp only [BitVec.getElem_append]
  split
  · simp [BitVec.getLsbD_eq_getElem hi]
  · next h => simp [show 8 + (i - 8) = i by omega, BitVec.getLsbD_eq_getElem hi]

/-- Every word is its two bytes joined. -/
theorem exists_joinBytes (v : Word) : ∃ h l, v = joinBytes h l := ⟨hiByte v, loByte v, (joinBytes_hi_lo v).symm⟩

@[simp] theorem reg16_setReg16 (rr : Reg16) (v : Word) : (s.setReg16 rr v).reg16 rr = v := by
  cases rr <;> simp [State.setReg16, State.reg16, State.bc, State.de, State.hl]

/-! ### The flags byte -/

@[simp] theorem ofByte_toByte (g : Flags) : Flags.ofByte g.toByte = g := by
  obtain ⟨z, n, h, c⟩ := g
  cases z <;> cases n <;> cases h <;> cases c <;> rfl

/-- R24: the flags byte of four flags has its low nibble 0. -/
@[simp] theorem toByte_low (g : Flags) : g.toByte &&& 0x0F#8 = 0#8 := by
  obtain ⟨z, n, h, c⟩ := g
  cases z <;> cases n <;> cases h <;> cases c <;> rfl

@[simp] theorem flags_setFlags (g : Flags) : (s.setFlags g).flags = g := by simp [State.flags]

@[simp] theorem flags_setReg (r : Reg8) (v : Byte) : (s.setReg r v).flags = s.flags := by simp [State.flags]

@[simp] theorem flags_cost (n : Nat) : (s.cost n).flags = s.flags := rfl

@[simp] theorem cycles_cost (n : Nat) : (s.cost n).out.cycles = n := rfl

/-! ### Outcomes -/

@[simp] theorem andThen_next (k : State → Outcome) : andThen (.next s) k = k s := rfl

/-- How a sequence of two parts answers a next state. -/
theorem andThen_eq_next {o : Outcome} {k : State → Outcome} {t : State} (h : andThen o k = .next t) :
    ∃ u, o = .next u ∧ k u = .next t := by
  cases o with
  | next u => exact ⟨u, rfl, h⟩
  | fault r => cases h
  | refused r => cases h

/-- How a sequence of two parts ends in a fault. -/
theorem andThen_eq_fault {o : Outcome} {k : State → Outcome} {f : Fault} (h : andThen o k = .fault f) :
    o = .fault f ∨ ∃ u, o = .next u ∧ k u = .fault f := by
  cases o with
  | next u => exact .inr ⟨u, rfl, h⟩
  | fault r => exact .inl h
  | refused r => cases h

/-- How a sequence of two parts ends in a refusal. -/
theorem andThen_eq_refused {o : Outcome} {k : State → Outcome} {r : Refusal} (h : andThen o k = .refused r) :
    o = .refused r ∨ ∃ u, o = .next u ∧ k u = .refused r := by
  cases o with
  | next u => exact .inr ⟨u, rfl, h⟩
  | fault f => cases h
  | refused q => exact .inl h

end Sys2Proof.Machine
end

