-- ==== Sys2Proof/Laws/Memory.lean ====
section
/-! SUPPORT. What one read or one write of a byte can do (20_memory): reads leave the CPU and every
backing store alone, a write is refused only at 0xFF46, and no write changes a read that `touches` does
not name. -/

namespace Sys2Proof.Machine

variable (s : State)

/-! ### RAM behind an address -/

/-- An address with RAM behind it reads that byte. -/
theorem readByte_ram {b : Word} {k : Nat} (h : s.ramKey b = some k) : s.readByte b = s.ram k := by
  unfold State.ramKey at h
  unfold State.readByte
  split at h <;> simp_all

/-- A store to RAM changes only the reads of that byte. -/
theorem readByte_putRam_other {b : Word} {k : Nat} (v : Byte) (h : s.ramKey b ≠ some k) :
    (s.putRam k v).readByte b = s.readByte b := by
  cases hk : s.ramKey b with
  | some q =>
    have hq : (s.putRam k v).ramKey b = some q := hk
    rw [readByte_ram _ hq, readByte_ram _ hk]
    simp only [State.ram, State.putRam]
    exact readCells_writeCells_other _ _ (by rintro rfl; exact h hk) v
  | none =>
    have ho : (s.putRam k v).extRamOpen = s.extRamOpen := rfl
    cases hr : regionOf b <;> simp_all only [State.ramKey, State.readByte] <;> try rfl
    all_goals first | (split at hk <;> simp_all) | cases hk

/-- A read after a store to RAM, in a state whose memory is in canonical form. -/
theorem readByte_putRam_same {b : Word} {k : Nat} (v : Byte) (hm : Memory.wf s.mem = true)
    (h : s.ramKey b = some k) : (s.putRam k v).readByte b = v := by
  have hq : (s.putRam k v).ramKey b = some k := h
  rw [readByte_ram _ hq]
  exact readCells_writeCells_same _ hm k v

/-! ### The I/O window -/

/-- The external device registers are those of `isExternal` (R60). -/
theorem ioRegOf_ext (b : Word) : ioRegOf b = .ext ↔ isExternal b = true := by
  unfold ioRegOf isExternal
  constructor
  · intro h
    simp only [ite_eq_iff, reduceCtorEq, and_false, or_false, and_true] at h
    exact h
  · intro h
    simp [h]

/-- The one address of an I/O register that has one (R59). -/
def ioAddress (r : IoReg) : Option Nat :=
  match r with
  | .ext | .audio | .unused => none
  | .ifr => some 0xFF0F
  | .lcdc => some 0xFF40
  | .stat => some 0xFF41
  | .scy => some 0xFF42
  | .scx => some 0xFF43
  | .ly => some 0xFF44
  | .lyc => some 0xFF45
  | .dma => some 0xFF46
  | .bgp => some 0xFF47
  | .obp0 => some 0xFF48
  | .obp1 => some 0xFF49
  | .wy => some 0xFF4A
  | .wx => some 0xFF4B
  | .boot => some 0xFF50

theorem ioRegOf_address {a : Word} {n : Nat} (h : ioAddress (ioRegOf a) = some n) : a.toNat = n := by
  generalize hr : ioRegOf a = r at h
  unfold ioRegOf at hr
  cases r <;> simp only [ite_eq_iff, reduceCtorEq, and_false, or_false, and_true, false_or] at hr <;>
    simp only [ioAddress, Option.some.injEq, reduceCtorEq] at h <;> omega

theorem ioRegOf_at (a : Word) :
    match ioRegOf a with
    | .ext | .audio | .unused => True
    | r => ioAddress r = some a.toNat := by
  cases h : ioRegOf a <;> simp only [ioAddress, Option.some.injEq] <;>
    exact (ioRegOf_address (a := a) (by rw [h]; rfl)).symm

/-- Two addresses of one single-address register are the same. -/
theorem ioRegOf_unique {a b : Word} {r : IoReg} {n : Nat} (hn : ioAddress r = some n) (ha : ioRegOf a = r)
    (hb : ioRegOf b = r) : b = a :=
  BitVec.eq_of_toNat_eq ((ioRegOf_address (hb ▸ hn)).trans (ioRegOf_address (ha ▸ hn)).symm)

/-- An external device register lies in the I/O window. -/
theorem isExternal_region {b : Word} (h : isExternal b = true) : regionOf b = .io := by
  simp only [isExternal, isExtAddr, decide_eq_true_eq] at h
  simp only [regionOf]
  repeat' split
  all_goals first | rfl | omega

/-! ### What a read of a byte depends on -/

/-- Outside the I/O window a read depends on these fields. -/
theorem readByte_congr {t : State} (b : Word) (hio : regionOf b ≠ .io) (hm : t.mem = s.mem)
    (hc : t.cart = s.cart) (hb : t.boot = s.boot) (hbm : t.bootMapped = s.bootMapped)
    (hmp : t.mapper = s.mapper) (hp : t.params = s.params) (hie : t.irq.ie = s.irq.ie) :
    t.readByte b = s.readByte b := by
  have ho : t.extRamOpen = s.extRamOpen := by simp [State.extRamOpen, hmp, hc]
  have hrb : t.ramBank = s.ramBank := by simp [State.ramBank, hc, hp, hmp]
  have hk : t.extRamKey b = s.extRamKey b := by simp [State.extRamKey, hrb, hc]
  have h0 : t.bank0000 = s.bank0000 := by simp [State.bank0000, hc, hp, hmp]
  have h4 : t.bank4000 = s.bank4000 := by simp [State.bank4000, hc, hp, hmp]
  simp [State.readByte, State.bootByte, State.ram, hm, hc, hb, hbm, hie, ho, hk, h0, h4]
  cases hr : regionOf b <;> simp_all

/-- In the I/O window a read depends on these fields, and at an external register on the history. -/
theorem readIo_congr {t : State} (b : Word) (hx : isExternal b = false) (hi : t.irq.ifr = s.irq.ifr)
    (ha : t.aud = s.aud) (hp : t.params = s.params) (hpp : t.ppu = s.ppu) : t.readIo b = s.readIo b := by
  have h : ioRegOf b ≠ .ext := fun h => by simp [(ioRegOf_ext b).mp h] at hx
  unfold State.readIo
  cases hr : ioRegOf b <;> simp_all

/-- A read of an address outside the external device registers depends on these fields. -/
theorem readByte_same {t : State} (b : Word) (hx : isExternal b = false) (hm : t.mem = s.mem)
    (hc : t.cart = s.cart) (hb : t.boot = s.boot) (hbm : t.bootMapped = s.bootMapped)
    (hmp : t.mapper = s.mapper) (hp : t.params = s.params) (hi : t.irq = s.irq) (ha : t.aud = s.aud)
    (hpp : t.ppu = s.ppu) : t.readByte b = s.readByte b := by
  by_cases hio : regionOf b = .io
  · have h := readIo_congr s b hx (congrArg Irq.ifr hi) ha hp hpp
    simpa [State.readByte, hio] using h
  · exact readByte_congr s b hio hm hc hb hbm hmp hp (congrArg Irq.ie hi)

/-- The first address of a row of the dispatcher's table (R51). -/
def regionLow (r : Region) : Nat :=
  match r with
  | .romFixed => 0
  | .romSwitch => 0x4000
  | .videoRam => 0x8000
  | .extRam => 0xA000
  | .workRam => 0xC000
  | .echo => 0xE000
  | .oam => 0xFE00
  | .reserved => 0xFEA0
  | .io => 0xFF00
  | .highRam => 0xFF80
  | .intEnable => 0xFFFF

/-- The address after the last one of a row (R51). -/
def regionHigh (r : Region) : Nat :=
  match r with
  | .romFixed => 0x4000
  | .romSwitch => 0x8000
  | .videoRam => 0xA000
  | .extRam => 0xC000
  | .workRam => 0xE000
  | .echo => 0xFE00
  | .oam => 0xFEA0
  | .reserved => 0xFF00
  | .io => 0xFF80
  | .highRam => 0xFFFF
  | .intEnable => 0x10000

/-- R51: an address lies in the row it selects. -/
theorem region_bounds (a : Word) : regionLow (regionOf a) ≤ a.toNat ∧ a.toNat < regionHigh (regionOf a) := by
  generalize hr : regionOf a = r
  have ha := a.isLt
  unfold regionOf at hr
  cases r <;> simp only [ite_eq_iff, reduceCtorEq, and_false, or_false, and_true, false_or] at hr <;>
    simp only [regionLow, regionHigh] <;> omega

theorem region_below {b : Word} (h : regionOf b = .romFixed ∨ regionOf b = .romSwitch) : b.toNat < 0x8000 := by
  have hb := region_bounds b
  rcases h with h | h <;> simp only [h, regionLow, regionHigh] at hb <;> omega

theorem region_boot {b : Word} (h : b.toNat < 0x100) : regionOf b = .romFixed := by
  unfold regionOf
  rw [if_pos (by omega)]

theorem region_ie_unique {a b : Word} (hb : regionOf b = .intEnable) (ha : regionOf a = .intEnable) :
    b = a := by
  have h1 := region_bounds a
  have h2 := region_bounds b
  simp only [ha, hb, regionLow, regionHigh] at h1 h2
  exact BitVec.eq_of_toNat_eq (by omega)

/-- The keys of OAM are those of its addresses. -/
theorem ramKey_oam {b : Word} {k : Nat} (hb : regionOf b ≠ .oam) (hk : s.ramKey b = some k) :
    k < 0xFE00 ∨ 0xFE00 + 0xA0 ≤ k := by
  have h := region_bounds b
  unfold State.ramKey at hk
  cases hr : regionOf b <;>
    simp only [hr, regionLow, regionHigh, Option.some.injEq, reduceCtorEq] at hk h <;> try omega
  case extRam =>
    split at hk
    · simp only [Option.some.injEq, State.extRamKey, eramKey] at hk
      omega
    · simp at hk
  case oam => exact absurd hr hb

/-- A write to LCDC writes LCDC, and on a change of bit 7 also LY, the dot, the mode and `lyc_eq`. -/
theorem writeLcdc_keeps (p : Ppu) (v : Byte) :
    (p.writeLcdc v).lcdc = v ∧ (p.writeLcdc v).statEn = p.statEn ∧ (p.writeLcdc v).scy = p.scy ∧
    (p.writeLcdc v).scx = p.scx ∧ (p.writeLcdc v).lyc = p.lyc ∧ (p.writeLcdc v).dma = p.dma ∧
    (p.writeLcdc v).bgp = p.bgp ∧ (p.writeLcdc v).obp0 = p.obp0 ∧ (p.writeLcdc v).obp1 = p.obp1 ∧
    (p.writeLcdc v).wy = p.wy ∧ (p.writeLcdc v).wx = p.wx ∧ (p.writeLcdc v).sel = p.sel ∧
    (p.writeLcdc v).fb = p.fb := by
  unfold Ppu.writeLcdc
  split <;> exact ⟨rfl, rfl, rfl, rfl, rfl, rfl, rfl, rfl, rfl, rfl, rfl, rfl, rfl⟩

/-! ### Writes -/

/-- The instant DMA changes OAM, the oracle's history and the reports only (R62). -/
theorem dmaCopy_keeps (page : Byte) (i n : Nat) :
    (dmaCopy page i n s).regs = s.regs ∧ (dmaCopy page i n s).sp = s.sp ∧ (dmaCopy page i n s).pc = s.pc ∧
    (dmaCopy page i n s).start = s.start ∧ (dmaCopy page i n s).irq = s.irq ∧
    (dmaCopy page i n s).ppu = s.ppu ∧ (dmaCopy page i n s).mapper = s.mapper ∧
    (dmaCopy page i n s).bootMapped = s.bootMapped ∧ (dmaCopy page i n s).aud = s.aud ∧
    (dmaCopy page i n s).cart = s.cart ∧ (dmaCopy page i n s).boot = s.boot ∧
    (dmaCopy page i n s).params = s.params ∧ (dmaCopy page i n s).env = s.env ∧
    (dmaCopy page i n s).fault = s.fault ∧ (dmaCopy page i n s).refused = s.refused := by
  induction n generalizing i s with
  | zero => exact ⟨rfl, rfl, rfl, rfl, rfl, rfl, rfl, rfl, rfl, rfl, rfl, rfl, rfl, rfl, rfl⟩
  | succ n ih =>
    have h := ih ((s.noteRead (joinBytes page 0#8 + BitVec.ofNat 16 i)).putRam (0xFE00 + i)
      (s.readByte (joinBytes page 0#8 + BitVec.ofNat 16 i))) (i + 1)
    simpa [dmaCopy, memRead] using h

/-- The instant DMA leaves every RAM byte outside its range of OAM alone. -/
theorem dmaCopy_ram (page : Byte) (i n : Nat) {k : Nat} (hk : k < 0xFE00 + i ∨ 0xFE00 + i + n ≤ k) :
    (dmaCopy page i n s).ram k = s.ram k := by
  induction n generalizing i s with
  | zero => rfl
  | succ n ih =>
    have h := ih ((s.noteRead (joinBytes page 0#8 + BitVec.ofNat 16 i)).putRam (0xFE00 + i)
      (s.readByte (joinBytes page 0#8 + BitVec.ofNat 16 i))) (i + 1) (by omega)
    simp only [dmaCopy, memRead]
    rw [h]
    simp only [State.ram, State.putRam]
    rw [readCells_writeCells_other _ _ (by omega)]
    simp

/-- A state that differs in OAM, the history and the DMA register only. -/
theorem readByte_dma {u : State} {v : Byte} {b : Word} (hx : isExternal b = false) (hb : ioRegOf b ≠ .dma)
    (ho : regionOf b ≠ .oam)
    (hram : ∀ k, k < 0xFE00 + 0 ∨ 0xFE00 + 0 + 160 ≤ k → u.ram k = s.ram k) (hirq : u.irq = s.irq)
    (hppu : u.ppu = { s.ppu with dma := v }) (hmap : u.mapper = s.mapper)
    (hbm : u.bootMapped = s.bootMapped) (haud : u.aud = s.aud) (hcart : u.cart = s.cart)
    (hboot : u.boot = s.boot) (hpar : u.params = s.params) : u.readByte b = s.readByte b := by
  cases hk : s.ramKey b with
  | some k =>
    have hu : u.ramKey b = some k := by
      rw [← hk]
      simp [State.ramKey, State.extRamOpen, State.extRamKey, State.ramBank, hmap, hcart, hpar]
    rw [readByte_ram _ hk, readByte_ram _ hu]
    exact hram k (by have := ramKey_oam s ho hk; omega)
  | none =>
    by_cases hio : regionOf b = .io
    · have h : ioRegOf b ≠ .ext := fun h => by simp [(ioRegOf_ext b).mp h] at hx
      simp only [State.readByte, hio, State.readIo]
      cases hi : ioRegOf b <;> simp_all [Ppu.stat]
    · have he : u.extRamOpen = s.extRamOpen := by simp [State.extRamOpen, hmap, hcart]
      have h0 : u.bank0000 = s.bank0000 := by simp [State.bank0000, hcart, hpar, hmap]
      have h4 : u.bank4000 = s.bank4000 := by simp [State.bank4000, hcart, hpar, hmap]
      cases hr : regionOf b <;> simp_all [State.readByte, State.ramKey, State.bootByte]

/-- R62, R235: a write is refused only at 0xFF46, and only with `P_DMA = refuse`. -/
theorem memWrite_completes {a : Word} (v : Byte) (h : mayWrite s a = true) : ∃ t, memWrite a v s = .next t := by
  unfold memWrite
  cases hr : regionOf a <;> try exact ⟨_, rfl⟩
  simp only [writeIo]
  cases hi : ioRegOf a <;> try exact ⟨_, rfl⟩
  have ha : a = 0xFF46#16 := BitVec.eq_of_toNat_eq (ioRegOf_address (a := a) (by rw [hi]; rfl))
  have hp : s.params.dma = .instant := by simpa [mayWrite, ha] using h
  simp only [hp]
  exact ⟨_, rfl⟩

/-- A write that completes was one that may be made. -/
theorem mayWrite_of_memWrite {a : Word} {v : Byte} {t : State} (h : memWrite a v s = .next t) :
    mayWrite s a = true := by
  by_cases ha : a = 0xFF46#16
  · subst ha
    cases hp : s.params.dma with
    | refuse =>
      have : memWrite 0xFF46#16 v s = .refused .dmaUnmodelled := by
        have hr : regionOf 0xFF46#16 = .io := by decide
        have hi : ioRegOf 0xFF46#16 = .dma := by decide
        simp [memWrite, hr, writeIo, hi, hp]
      rw [this] at h; cases h
    | instant => simp [mayWrite, hp]
  · simp [mayWrite, ha]

/-- A write ends in a next state or in the refusal of R62. -/
theorem memWrite_outcome (a : Word) (v : Byte) :
    (∃ t, memWrite a v s = .next t) ∨ (mayWrite s a = false ∧ memWrite a v s = .refused .dmaUnmodelled) := by
  cases h : mayWrite s a with
  | true => exact .inl (memWrite_completes s v h)
  | false =>
    simp only [mayWrite, Bool.or_eq_false_iff, decide_eq_false_iff_not, not_not] at h
    obtain ⟨rfl, hp⟩ := h
    have hr : regionOf 0xFF46#16 = .io := by decide
    have hi : ioRegOf 0xFF46#16 = .dma := by decide
    cases hd : s.params.dma with
    | refuse => exact .inr ⟨rfl, by simp [memWrite, hr, writeIo, hi, hd]⟩
    | instant => exact absurd hd hp

/-- A write leaves the CPU's own state and the setting alone. -/
theorem memWrite_keeps {a : Word} {v : Byte} {t : State} (h : memWrite a v s = .next t) :
    sameCpu s t ∧ sameSetting s t ∧ t.out.cycles = s.out.cycles ∧ t.out.frame = s.out.frame := by
  have hd := dmaCopy_keeps { s with ppu := { s.ppu with dma := v } } v 0 160
  have hc := dmaCopy_out { s with ppu := { s.ppu with dma := v } } v 0 160
  unfold memWrite at h
  cases hr : regionOf a <;> simp only [hr] at h
  case io =>
    unfold writeIo at h
    cases hi : ioRegOf a <;> simp only [hi] at h
    case dma =>
      cases hp : s.params.dma <;> simp only [hp] at h
      · cases h
      · rw [Host.Outcome.next.injEq] at h
        subst h
        generalize dmaCopy v 0 160 { s with ppu := { s.ppu with dma := v } } = u at hd hc
        simp_all [sameCpu, sameSetting]
    all_goals
      cases h
      first
      | exact ⟨⟨rfl, rfl, rfl, rfl, rfl, rfl, rfl, rfl⟩, ⟨rfl, rfl, rfl, rfl, rfl, rfl⟩, rfl, rfl⟩
      | (split <;> exact ⟨⟨rfl, rfl, rfl, rfl, rfl, rfl, rfl, rfl⟩, ⟨rfl, rfl, rfl, rfl, rfl, rfl⟩, rfl, rfl⟩)
  all_goals
    cases h
    first
    | exact ⟨⟨rfl, rfl, rfl, rfl, rfl, rfl, rfl, rfl⟩, ⟨rfl, rfl, rfl, rfl, rfl, rfl⟩, rfl, rfl⟩
    | (unfold mapperWrite
       split <;> exact ⟨⟨rfl, rfl, rfl, rfl, rfl, rfl, rfl, rfl⟩, ⟨rfl, rfl, rfl, rfl, rfl, rfl⟩, rfl, rfl⟩)
    | (split <;> exact ⟨⟨rfl, rfl, rfl, rfl, rfl, rfl, rfl, rfl⟩, ⟨rfl, rfl, rfl, rfl, rfl, rfl⟩, rfl, rfl⟩)
where
  noteRead_out (s : State) (a : Word) :
      (s.noteRead a).out.cycles = s.out.cycles ∧ (s.noteRead a).out.frame = s.out.frame := by
    unfold State.noteRead
    repeat' split
    all_goals exact ⟨rfl, rfl⟩
  dmaCopy_out (s : State) (page : Byte) (i n : Nat) :
      (dmaCopy page i n s).out.cycles = s.out.cycles ∧ (dmaCopy page i n s).out.frame = s.out.frame := by
    induction n generalizing i s with
    | zero => exact ⟨rfl, rfl⟩
    | succ n ih =>
      have h := ih ((s.noteRead (joinBytes page 0#8 + BitVec.ofNat 16 i)).putRam (0xFE00 + i)
        (s.readByte (joinBytes page 0#8 + BitVec.ofNat 16 i))) (i + 1)
      have h2 := noteRead_out s (joinBytes page 0#8 + BitVec.ofNat 16 i)
      simpa [dmaCopy, memRead, h2.1, h2.2] using h

/-- A mapper write changes reads of ROM and of the external-RAM window only, and none without a mapper. -/
theorem readByte_mapperWrite (a : Word) (v : Byte) {b : Word} (hx : isExternal b = false)
    (ht : (s.cart.isMbc1 && (decide (b.toNat < 0x8000) || decide (regionOf b = .extRam))) = false) :
    (mapperWrite a v s).readByte b = s.readByte b := by
  unfold mapperWrite
  split
  · next hm =>
    simp only [hm, Bool.true_and, Bool.or_eq_false_iff, decide_eq_false_iff_not] at ht
    have hf : regionOf b ≠ .romFixed := fun h => ht.1 (region_below (.inl h))
    have hs : regionOf b ≠ .romSwitch := fun h => ht.1 (region_below (.inr h))
    by_cases hio : regionOf b = .io
    · simp only [State.readByte, hio]
      exact readIo_congr s b hx rfl rfl rfl rfl
    · simp only [State.readByte]
      have he : regionOf b ≠ .extRam := ht.2
      cases hr : regionOf b <;> first | contradiction | rfl
  · rfl

/-- R69, R56: a write changes no read that `touches` does not name. -/
theorem readByte_memWrite {a : Word} {v : Byte} {t : State} (h : memWrite a v s = .next t) {b : Word}
    (hx : isExternal b = false) (ht : touches s a b = false) : t.readByte b = s.readByte b := by
  have hd := dmaCopy_keeps { s with ppu := { s.ppu with dma := v } } v 0 160
  have hram := @dmaCopy_ram { s with ppu := { s.ppu with dma := v } } v 0 160
  unfold memWrite at h
  unfold touches at ht
  cases hr : regionOf a <;> simp only [hr] at h ht
  case io =>
    unfold writeIo at h
    have hu : ∀ n, ioAddress (ioRegOf a) = some n → b ≠ a → ioRegOf b ≠ ioRegOf a :=
      fun n hn hne hc => hne (ioRegOf_unique hn rfl hc)
    cases hi : ioRegOf a <;> simp only [hi] at h ht hu
    case ext => cases h; exact readByte_same s b hx rfl rfl rfl rfl rfl rfl rfl rfl rfl
    case ly => cases h; rfl
    case unused => cases h; exact readByte_same s b hx rfl rfl rfl rfl rfl rfl rfl rfl rfl
    case boot =>
      cases h
      split
      · rfl
      · by_cases hio : regionOf b = .io
        · simp only [State.readByte, hio]; rfl
        · have hb : ¬ b.toNat < 0x100 := by simpa using ht
          simp only [State.readByte]
          cases hrb : regionOf b <;> simp [hb] <;> rfl
    case dma =>
      cases hp : s.params.dma <;> simp only [hp] at h
      · cases h
      · rw [Host.Outcome.next.injEq] at h
        subst h
        generalize dmaCopy v 0 160 { s with ppu := { s.ppu with dma := v } } = u at hd hram
        simp only [Bool.or_eq_false_iff, decide_eq_false_iff_not, not_or] at ht
        obtain ⟨hregs, hsp, hpc, hst, hirq, hppu, hmap, hbm, haud, hcart, hboot, hpar, henv, hf, hrf⟩ := hd
        exact readByte_dma s hx (hu _ rfl ht.1.1) ht.1.2 (fun k hk => hram hk) hirq hppu hmap hbm haud hcart hboot hpar
    case audio =>
      cases h
      by_cases hio : regionOf b = .io
      · simp only [State.readByte, hio, State.readIo]
        cases hb : ioRegOf b <;> try rfl
        have hne : b.toNat ≠ a.toNat := fun hc => by
          simp at ht; exact ht (BitVec.eq_of_toNat_eq hc)
        exact readCells_writeCells_other _ _ hne v
      · exact readByte_congr s b hio rfl rfl rfl rfl rfl rfl rfl
    all_goals
      cases h
      by_cases hio : regionOf b = .io
      · simp only [State.readByte, hio, State.readIo]
        have haa := ioRegOf_at a
        simp only [hi, ioAddress, Option.some.injEq] at haa
        cases hb : ioRegOf b <;> first
        | rfl
        | (have hbb := ioRegOf_at b
           simp only [hb, ioAddress, Option.some.injEq] at hbb
           simp only [decide_eq_false_iff_not, not_or, ← BitVec.toNat_inj, BitVec.toNat_ofNat] at ht
           omega)
        | (simp only [writeLcdc_keeps])
      · exact readByte_congr s b hio rfl rfl rfl rfl rfl rfl rfl
  case intEnable =>
    cases h
    by_cases hio : regionOf b = .io
    · simp only [State.readByte, hio]
      exact readIo_congr s b hx rfl rfl rfl rfl
    · have hb : regionOf b ≠ .intEnable := fun h => by
        simp only [decide_eq_false_iff_not] at ht
        exact ht (region_ie_unique h hr)
      simp only [State.readByte]
      cases hrb : regionOf b <;> first | rfl | exact absurd hrb hb
  case reserved => cases h; exact readByte_same s b hx rfl rfl rfl rfl rfl rfl rfl rfl rfl
  case romFixed => cases h; exact readByte_mapperWrite s a v hx ht
  case romSwitch => cases h; exact readByte_mapperWrite s a v hx ht
  case extRam =>
    cases h
    cases ho : s.extRamOpen
    · exact readByte_same s b hx rfl rfl rfl rfl rfl rfl rfl rfl rfl
    · refine readByte_putRam_other s v fun hk => ?_
      have hka : s.ramKey a = some (s.extRamKey a) := by simp [State.ramKey, hr, ho]
      simp only [hka] at ht
      simp [hk] at ht
  all_goals
    cases h
    refine readByte_putRam_other s v fun hk => ?_
    rw [hk] at ht
    simp [State.ramKey, hr] at ht

/-! ### The canonical form -/

/-- A store to a byte of RAM that exists keeps RAM well formed. -/
theorem putRam_ramWf {k : Nat} (v : Byte) (h : ramWf s.cart s.mem = true) (hk : ramKeyExists s.cart k = true) :
    ramWf (s.putRam k v).cart (s.putRam k v).mem = true := by
  simp only [ramWf, Bool.and_eq_true] at h ⊢
  exact ⟨writeCells_wf _ h.1 k v, writeCells_all _ h.2 hk⟩

/-- A store to RAM keeps the canonical form. -/
theorem putRam_memWf (k : Nat) (v : Byte) (h : Memory.wf s.mem = true) : Memory.wf (s.putRam k v).mem = true :=
  writeCells_wf _ h k v

/-- The RAM byte behind an address exists (R44). -/
theorem ramKey_exists {a : Word} {k : Nat} (h : s.ramKey a = some k) : ramKeyExists s.cart k = true := by
  have hb := region_bounds a
  simp only [ramKeyExists, decide_eq_true_eq]
  unfold State.ramKey at h
  cases hr : regionOf a <;> simp only [hr, regionLow, regionHigh, reduceCtorEq, Option.some.injEq] at h hb <;>
    try omega
  split at h
  · next ho =>
    simp only [State.extRamOpen, Bool.and_eq_true, decide_eq_true_eq] at ho
    have := Nat.mod_lt (s.ramBank * 0x2000 + (a.toNat - 0xA000)) ho.2
    simp only [Option.some.injEq, State.extRamKey, eramKey] at h
    omega
  · simp at h

theorem dmaCopy_memWf (page : Byte) (i n : Nat) (h : Memory.wf s.mem = true) :
    Memory.wf (dmaCopy page i n s).mem = true := by
  induction n generalizing i s with
  | zero => exact h
  | succ n ih =>
    simp only [dmaCopy, memRead]
    exact ih _ _ (putRam_memWf _ _ _ (by simpa using h))

theorem dmaCopy_ramWf (page : Byte) (i n : Nat) (h : ramWf s.cart s.mem = true) (hn : i + n ≤ 160) :
    ramWf (dmaCopy page i n s).cart (dmaCopy page i n s).mem = true := by
  induction n generalizing i s with
  | zero => exact h
  | succ n ih =>
    simp only [dmaCopy, memRead]
    refine ih _ _ (putRam_ramWf _ _ (by simpa using h) ?_) (by omega)
    simp only [ramKeyExists, decide_eq_true_eq]
    omega

/-- What a write does to memory and the audio store: one byte of one of them, or the DMA's copy. -/
theorem memWrite_stores {a : Word} {v : Byte} {t : State} (h : memWrite a v s = .next t) :
    (t.mem = s.mem ∧ t.aud = s.aud) ∨
    (∃ k, s.ramKey a = some k ∧ t = s.putRam k v) ∨
    (isAudioAddr a.toNat = true ∧ t.mem = s.mem ∧ t.aud = writeCells unlistedByte s.aud a.toNat v) ∨
    t = dmaCopy v 0 160 { s with ppu := { s.ppu with dma := v } } := by
  cases hk : s.ramKey a with
  | some k => exact .inr (.inl ⟨k, rfl, by rw [memWrite_ram' s v hk] at h; cases h; rfl⟩)
  | none =>
    unfold memWrite at h
    cases hr : regionOf a <;> simp only [hr] at h <;> simp only [State.ramKey, hr, reduceCtorEq] at hk
    case io =>
      unfold writeIo at h
      cases hi : ioRegOf a <;> simp only [hi] at h
      case dma =>
        cases hp : s.params.dma <;> simp only [hp] at h
        · cases h
        · rw [Host.Outcome.next.injEq] at h
          exact .inr (.inr (.inr h.symm))
      case audio =>
        cases h
        refine .inr (.inr (.inl ⟨?_, rfl, rfl⟩))
        unfold ioRegOf at hi
        simp only [ite_eq_iff, reduceCtorEq, and_false, or_false, and_true, false_or] at hi
        exact hi.2.2
      case boot => cases h; split <;> exact .inl ⟨rfl, rfl⟩
      all_goals cases h; exact .inl ⟨rfl, rfl⟩
    case romFixed => cases h; unfold mapperWrite; split <;> exact .inl ⟨rfl, rfl⟩
    case romSwitch => cases h; unfold mapperWrite; split <;> exact .inl ⟨rfl, rfl⟩
    case extRam =>
      cases h
      split
      · simp_all
      · exact .inl ⟨rfl, rfl⟩
    all_goals cases h; exact .inl ⟨rfl, rfl⟩
where
  memWrite_ram' (s : State) {a : Word} {k : Nat} (v : Byte) (h : s.ramKey a = some k) :
      memWrite a v s = .next (s.putRam k v) := by
    unfold State.ramKey at h
    unfold memWrite
    split at h <;> simp_all

theorem memWrite_memWf {a : Word} {v : Byte} {t : State} (h : memWrite a v s = .next t)
    (hm : Memory.wf s.mem = true) : Memory.wf t.mem = true := by
  rcases memWrite_stores s h with ⟨h, -⟩ | ⟨k, -, rfl⟩ | ⟨-, h, -⟩ | rfl
  · rwa [h]
  · exact putRam_memWf s k v hm
  · rwa [h]
  · exact dmaCopy_memWf _ _ _ _ hm

theorem memWrite_ramWf {a : Word} {v : Byte} {t : State} (h : memWrite a v s = .next t)
    (hm : ramWf s.cart s.mem = true) : ramWf t.cart t.mem = true := by
  obtain ⟨-, ⟨hc, -⟩, -⟩ := memWrite_keeps s h
  rcases memWrite_stores s h with ⟨h, -⟩ | ⟨k, hk, rfl⟩ | ⟨-, h, -⟩ | rfl
  · rwa [h, hc]
  · exact putRam_ramWf s v hm (ramKey_exists s hk)
  · rwa [h, hc]
  · exact dmaCopy_ramWf _ _ _ _ hm (by omega)

theorem memWrite_audWf {a : Word} {v : Byte} {t : State} (h : memWrite a v s = .next t)
    (hm : audWf s.aud = true) : audWf t.aud = true := by
  rcases memWrite_stores s h with ⟨-, h⟩ | ⟨k, hk, rfl⟩ | ⟨ha, -, h⟩ | rfl
  · rwa [h]
  · exact hm
  · rw [h]
    simp only [audWf, Bool.and_eq_true] at hm ⊢
    exact ⟨writeCells_wf _ hm.1 _ v, writeCells_all _ hm.2 ha⟩
  · rw [(dmaCopy_keeps _ v 0 160).2.2.2.2.2.2.2.2.1]
    exact hm

end Sys2Proof.Machine
end

