-- ==== Sys2Proof/Laws/Ops.lean ====
section
/-! SUPPORT. What the shared operations over memory and the stack can do, said once: one write, two writes in
order, a push and a pop, an r8 operand, taking an interrupt. -/

namespace Sys2Proof.Machine

variable (s : State)

/-! ### Changes of registers only -/

theorem readByte_onlyRegisters {t : State} (h : onlyRegisters s t) (b : Word) : t.readByte b = s.readByte b := by
  rw [h]; rfl

theorem onlyRegisters_refl : onlyRegisters s s := rfl

theorem onlyRegisters_trans {t u : State} (h : onlyRegisters s t) (g : onlyRegisters t u) : onlyRegisters s u := by
  unfold onlyRegisters at *
  rw [g, h]

/-! ### Reads -/

theorem noteRead_outs (a : Word) :
    (s.noteRead a).out.cycles = s.out.cycles ∧ (s.noteRead a).out.frame = s.out.frame :=
  memWrite_keeps.noteRead_out s a

/-- A read changes no other read but those of the external devices (R69). -/
theorem readByte_noteRead (a : Word) {b : Word} (hx : isExternal b = false) :
    (s.noteRead a).readByte b = s.readByte b :=
  readByte_same s b hx (by simp) (by simp) (by simp) (by simp) (by simp) (by simp) (by simp) (by simp) (by simp)

theorem ramKey_congr {t : State} (hm : t.mapper = s.mapper) (hc : t.cart = s.cart) (hp : t.params = s.params)
    (b : Word) : t.ramKey b = s.ramKey b := by
  simp [State.ramKey, State.extRamOpen, State.extRamKey, State.ramBank, hm, hc, hp]

theorem touches_congr {t : State} (hm : t.mapper = s.mapper) (hc : t.cart = s.cart) (hp : t.params = s.params)
    (a b : Word) : touches t a b = touches s a b := by
  simp [touches, ramKey_congr s hm hc hp, hc]

theorem mayWrite_congr {t : State} (hp : t.params = s.params) (a : Word) : mayWrite t a = mayWrite s a := by
  simp [mayWrite, hp]

theorem mayWrite_noteRead (a b : Word) : mayWrite (s.noteRead a) b = mayWrite s b := mayWrite_congr s (by simp) b

/-- R83: reading an r8 operand. -/
theorem get8_eq (r : Operand8) : get8 r s = (operandValue r s, operandState r s) := by cases r <;> rfl

/-! ### One write -/

/-- The mapper is written only at addresses below 0x8000. -/
theorem memWrite_mapper {a : Word} {v : Byte} {t : State} (h : memWrite a v s = .next t)
    (ha : 0x8000 ≤ a.toNat) : t.mapper = s.mapper := by
  have hd := dmaCopy_keeps { s with ppu := { s.ppu with dma := v } } v 0 160
  have hb := region_bounds a
  unfold memWrite at h
  cases hr : regionOf a <;> simp only [hr, regionLow, regionHigh] at h hb
  case io =>
    unfold writeIo at h
    cases hi : ioRegOf a <;> simp only [hi] at h
    case dma =>
      cases hp : s.params.dma <;> simp only [hp] at h
      · cases h
      · rw [Host.Outcome.next.injEq] at h
        rw [← h]; exact hd.2.2.2.2.2.2.1
    case boot => cases h; split <;> rfl
    all_goals cases h; rfl
  case romFixed => omega
  case romSwitch => omega
  case extRam => cases h; split <;> rfl
  all_goals cases h; rfl

/-- A write to an address with RAM behind it stores there (R54 to R58, R67). -/
theorem memWrite_ram {a : Word} {k : Nat} (v : Byte) (h : s.ramKey a = some k) :
    memWrite a v s = .next (s.putRam k v) := by
  unfold State.ramKey at h
  unfold memWrite
  split at h <;> simp_all

theorem memWrite_holds {a : Word} {v : Byte} {t : State} (h : memWrite a v s = .next t) : holds s t a v := by
  intro hm hk
  obtain ⟨k, hk⟩ := Option.isSome_iff_exists.mp hk
  rw [memWrite_ram s v hk] at h
  cases h
  exact readByte_putRam_same s v hm hk

theorem memWrite_memoryKept {a : Word} {v : Byte} {t : State} (h : memWrite a v s = .next t) :
    memoryKept s t [a] := fun _ hx ht => readByte_memWrite s h hx (ht a (List.mem_singleton.mpr rfl))

theorem memoryKept_onlyRegisters {t u : State} {as : List Word} (h : memoryKept s t as) (g : onlyRegisters t u) :
    memoryKept s u as := fun b hx ht => (readByte_onlyRegisters t g b).trans (h b hx ht)

theorem holds_onlyRegisters {t u : State} {a : Word} {v : Byte} (h : holds s t a v) (g : onlyRegisters t u) :
    holds s u a v := fun hm hk => (readByte_onlyRegisters t g a).trans (h hm hk)

/-- A store of one byte, as the statements say it. -/
theorem stored_of_memWrite {u t w : State} {a : Word} {v : Byte} (hm : u.mapper = s.mapper)
    (hc : u.cart = s.cart) (hp : u.params = s.params) (hmem : u.mem = s.mem)
    (hr : ∀ b, isExternal b = false → u.readByte b = s.readByte b)
    (h : memWrite a v u = .next w) (g : onlyRegisters w t) : stored s u a v t := by
  refine ⟨⟨w, h, g⟩, fun b hx ht => ?_, fun hwf hk => ?_⟩
  · rw [readByte_onlyRegisters w g b, readByte_memWrite u h hx, hr b hx]
    rw [touches_congr s hm hc hp]
    exact ht a (List.mem_singleton.mpr rfl)
  · rw [readByte_onlyRegisters w g a]
    exact memWrite_holds u h (hmem ▸ hwf) (by rw [ramKey_congr s hm hc hp]; exact hk)

/-! ### Two writes in order -/

/-- After a write that cannot change reads of `c`, a write to `b` can change them exactly as before. -/
theorem touches_after {a b c : Word} {v : Byte} {u : State} (h : memWrite a v s = .next u)
    (ht : touches s a c = false) : touches u b c = touches s b c := by
  obtain ⟨-, ⟨hc, -, hp, -⟩, -⟩ := memWrite_keeps s h
  by_cases ha : 0x8000 ≤ a.toNat
  · exact touches_congr s (memWrite_mapper s h ha) hc hp b c
  · have hr : regionOf a = .romFixed ∨ regionOf a = .romSwitch := by
      have := region_bounds a
      cases hr : regionOf a <;> simp_all [regionLow, regionHigh]
      all_goals omega
    by_cases hm : s.cart.isMbc1 = true
    · have hcb : regionOf c ≠ .extRam ∧ ¬ c.toNat < 0x8000 := by
        rcases hr with hr | hr <;> simp [touches, hr, hm] at ht <;> exact ⟨ht.2, by omega⟩
      have hk : u.ramKey c = s.ramKey c := by
        unfold State.ramKey
        cases hrc : regionOf c <;> first | rfl | exact absurd hrc hcb.1
      have hb := region_bounds c
      have hlow : ∀ k, s.ramKey c = some k → k < 0x10000 := by
        intro k hk
        have := c.isLt
        unfold State.ramKey at hk
        split at hk <;> simp_all <;> omega
      unfold touches
      cases hrb : regionOf b <;> simp only [hc]
      case extRam =>
        have hl : ∀ t : State, t.ramKey c = s.ramKey c →
            ((t.ramKey b).isSome && decide (t.ramKey b = t.ramKey c)) = false := by
          intro t htc
          cases hk : t.ramKey b with
          | none => rfl
          | some k =>
            have hk2 : 0x10000 ≤ k := by
              simp only [State.ramKey, hrb] at hk
              split at hk
              · simp only [Option.some.injEq, State.extRamKey, eramKey] at hk; omega
              · simp at hk
            simp only [Option.isSome_some, Bool.true_and, decide_eq_false_iff_not]
            intro heq
            rw [htc] at heq
            have := hlow k heq.symm
            omega
        rw [hl u hk, hl s rfl]
      all_goals
        have hkb : u.ramKey b = s.ramKey b := by simp only [State.ramKey, hrb]
        simp only [hkb, hk]
    · have hu : u = s := by
        rcases hr with hr | hr <;> simp [memWrite, hr, mapperWrite, hm] at h <;> exact h.symm
      rw [hu]

theorem memoryKept_two {a b : Word} {v x : Byte} {u w : State} (h : memWrite a v s = .next u)
    (g : memWrite b x u = .next w) : memoryKept s w [a, b] := by
  intro c hx ht
  have ha := ht a (by simp)
  have hb := ht b (by simp)
  rw [readByte_memWrite u g hx (by rw [touches_after s h ha]; exact hb), readByte_memWrite s h hx ha]

/-- A write to a neighbour of a RAM byte does not change it. -/
theorem touches_neighbour {a b : Word} (hab : b = a + 1 ∨ a = b + 1) (ha : (s.ramKey a).isSome = true) :
    touches s b a = false := by
  have hba := region_bounds a
  have hbb := region_bounds b
  have hn : b.toNat = (a.toNat + 1) % 65536 ∨ a.toNat = (b.toNat + 1) % 65536 := by
    rcases hab with rfl | rfl
    · left; simp [BitVec.toNat_add]
    · right; simp [BitVec.toNat_add]
  have hsize : s.extRamOpen = true → 1 < s.cart.ramSize := by
    intro ho
    simp only [State.extRamOpen, Bool.and_eq_true, decide_eq_true_eq] at ho
    have h1 : ∀ k : Fin 6, 0 < ramBytesOfCode k → 1 < ramBytesOfCode k := by decide
    have h2 := ho.2
    unfold Cartridge.ramSize at h2 ⊢
    split at h2
    · simp at h2
    · simp at h2
    · exact h1 _ h2
    · exact h1 _ h2
  have hmod : ∀ x m : Nat, 1 < m → (x + 1) % m ≠ x % m := by
    intro x m hm h
    have : 1 ≡ 0 [MOD m] := Nat.ModEq.add_left_cancel' x h
    rw [Nat.ModEq, Nat.zero_mod, Nat.mod_eq_of_lt hm] at this
    exact absurd this (by decide)
  cases hra : regionOf a <;> simp only [State.ramKey, hra, Option.isSome_none, Bool.false_eq_true] at ha <;>
    cases hrb : regionOf b <;>
    simp only [touches, hrb, State.ramKey, hra, regionLow, regionHigh, Option.isSome_some, Bool.true_and,
      decide_eq_false_iff_not, Option.some.injEq, reduceCtorEq] at hba hbb ⊢ <;>
    try omega
  case videoRam.romSwitch => simp; omega
  case highRam.intEnable => rintro rfl; rw [hra] at hrb; cases hrb
  case highRam.io =>
    have hb : b = 0xFF7F#16 := BitVec.eq_of_toNat_eq (by rw [BitVec.toNat_ofNat]; omega)
    subst hb
    rfl
  case extRam.extRam =>
    cases ho : s.extRamOpen
    · rfl
    · have hm := hsize ho
      simp only [if_true, Option.isSome_some, Bool.true_and, decide_eq_false_iff_not, Option.some.injEq,
        State.extRamKey, eramKey]
      intro heq
      rcases hn with hn | hn
      · have he : s.ramBank * 0x2000 + (b.toNat - 0xA000) = s.ramBank * 0x2000 + (a.toNat - 0xA000) + 1 := by
          omega
        rw [he] at heq
        exact hmod (s.ramBank * 0x2000 + (a.toNat - 0xA000)) s.cart.ramSize hm (by omega)
      · have he : s.ramBank * 0x2000 + (a.toNat - 0xA000) = s.ramBank * 0x2000 + (b.toNat - 0xA000) + 1 := by
          omega
        rw [he] at heq
        exact hmod (s.ramBank * 0x2000 + (b.toNat - 0xA000)) s.cart.ramSize hm (by omega)
  all_goals
    cases ho : s.extRamOpen
    all_goals simp [State.extRamKey, eramKey, ho] at ha ⊢
    all_goals omega

/-- The two stores of a 16-bit transfer, high address first or last, leave each RAM byte with its value. -/
theorem holds_two {a b : Word} {v x : Byte} {u w : State} (hab : b = a + 1 ∨ a = b + 1)
    (h : memWrite a v s = .next u) (g : memWrite b x u = .next w) : holds s w a v ∧ holds s w b x := by
  constructor
  · intro hm hk
    have hx : isExternal a = false := by
      cases he : isExternal a with
      | false => rfl
      | true => simp [State.ramKey, isExternal_region he] at hk
    rw [readByte_memWrite u g hx ?_]
    · exact memWrite_holds s h hm hk
    · obtain ⟨k, hk'⟩ := Option.isSome_iff_exists.mp hk
      rw [memWrite_ram s v hk'] at h
      cases h
      exact (touches_congr s (t := s.putRam k v) rfl rfl rfl b a).trans (touches_neighbour s hab hk)
  · intro hm hk
    obtain ⟨-, ⟨hc, -, hp, -⟩, -⟩ := memWrite_keeps s h
    refine memWrite_holds u g (memWrite_memWf s h hm) ?_
    by_cases ha : 0x8000 ≤ a.toNat
    · rw [ramKey_congr s (memWrite_mapper s h ha) hc hp]; exact hk
    · have hn : b.toNat < 0x8001 ∨ b.toNat = 0xFFFF := by
        rcases hab with rfl | rfl
        · left; rw [BitVec.toNat_add]; simp; omega
        · have := b.isLt
          rw [BitVec.toNat_add] at ha
          simp at ha
          omega
      have hb := region_bounds b
      simp only [State.ramKey] at hk ⊢
      cases hr : regionOf b <;> simp only [hr, regionLow, regionHigh] at hk hb ⊢ <;> first | rfl | omega

/-! ### Writes beside a change of registers -/

theorem noteRead_registers (a : Word) (g : Regs) (x y : Word) (n : Nat) :
    State.noteRead { s with regs := g, sp := x, pc := y, out := { s.out with cycles := n } } a =
      { s.noteRead a with regs := g, sp := x, pc := y, out := { (s.noteRead a).out with cycles := n } } := by
  unfold State.noteRead
  cases hr : regionOf a <;> try rfl
  · change (if s.extRamOpen = true then _ else _) = _
    simp only
    split <;> rfl
  · cases hi : ioRegOf a <;> rfl

theorem dmaCopy_registers (page : Byte) (i k : Nat) (g : Regs) (x y : Word) (n : Nat) :
    dmaCopy page i k { s with regs := g, sp := x, pc := y, out := { s.out with cycles := n } } =
      { dmaCopy page i k s with
          regs := g, sp := x, pc := y, out := { (dmaCopy page i k s).out with cycles := n } } := by
  induction k generalizing i s with
  | zero => rfl
  | succ k ih =>
    simp only [dmaCopy, memRead, noteRead_registers]
    exact ih ((s.noteRead (joinBytes page 0#8 + BitVec.ofNat 16 i)).putRam (0xFE00 + i)
      (s.readByte (joinBytes page 0#8 + BitVec.ofNat 16 i))) (i + 1)

/-- A write does not look at the registers, SP, PC or the cycle count, and carries them along. -/
theorem memWrite_registers (a : Word) (v : Byte) (g : Regs) (x y : Word) (n : Nat) :
    memWrite a v { s with regs := g, sp := x, pc := y, out := { s.out with cycles := n } } =
      andThen (memWrite a v s) fun t =>
        .next { t with regs := g, sp := x, pc := y, out := { t.out with cycles := n } } := by
  unfold memWrite
  cases hr : regionOf a <;> simp only
  case io =>
    unfold writeIo
    cases hi : ioRegOf a <;> simp only
    case dma =>
      cases hp : s.params.dma <;> simp only
      · rfl
      · simp only [andThen_next]
        rw [Host.Outcome.next.injEq, ← dmaCopy_registers]
    case boot => split <;> rfl
    all_goals rfl
  case romFixed => unfold mapperWrite; split <;> rfl
  case romSwitch => unfold mapperWrite; split <;> rfl
  case extRam => change (Host.Outcome.next (if s.extRamOpen = true then _ else _) : Outcome) = _; split <;> rfl
  all_goals rfl

/-! ### Writes beside a change of the execution control -/

theorem noteRead_control (a : Word) (x y : Bool) :
    State.noteRead { s with irq := { s.irq with halted := x, hbPending := y } } a =
      { s.noteRead a with irq := { (s.noteRead a).irq with halted := x, hbPending := y } } := by
  unfold State.noteRead
  cases hr : regionOf a <;> try rfl
  · change (if s.extRamOpen = true then _ else _) = _
    simp only
    split <;> rfl
  · cases hi : ioRegOf a <;> rfl

theorem readByte_control (a : Word) (x y : Bool) :
    State.readByte { s with irq := { s.irq with halted := x, hbPending := y } } a = s.readByte a := by
  unfold State.readByte
  cases hr : regionOf a <;> rfl

theorem dmaCopy_control (page : Byte) (i k : Nat) (x y : Bool) :
    dmaCopy page i k { s with irq := { s.irq with halted := x, hbPending := y } } =
      { dmaCopy page i k s with irq := { (dmaCopy page i k s).irq with halted := x, hbPending := y } } := by
  induction k generalizing i s with
  | zero => rfl
  | succ k ih =>
    simp only [dmaCopy, memRead, noteRead_control, readByte_control]
    exact ih ((s.noteRead (joinBytes page 0#8 + BitVec.ofNat 16 i)).putRam (0xFE00 + i)
      (s.readByte (joinBytes page 0#8 + BitVec.ofNat 16 i))) (i + 1)

/-- A write does not look at the halted state or the halt bug, and carries them along. -/
theorem memWrite_control (a : Word) (v : Byte) (x y : Bool) :
    memWrite a v { s with irq := { s.irq with halted := x, hbPending := y } } =
      andThen (memWrite a v s) fun t =>
        .next { t with irq := { t.irq with halted := x, hbPending := y } } := by
  unfold memWrite
  cases hr : regionOf a <;> simp only
  case io =>
    unfold writeIo
    cases hi : ioRegOf a <;> simp only
    case dma =>
      cases hp : s.params.dma <;> simp only
      · rfl
      · simp only [andThen_next]
        rw [Host.Outcome.next.injEq, ← dmaCopy_control]
    case boot => split <;> rfl
    all_goals rfl
  case romFixed => unfold mapperWrite; split <;> rfl
  case romSwitch => unfold mapperWrite; split <;> rfl
  case extRam => change (Host.Outcome.next (if s.extRamOpen = true then _ else _) : Outcome) = _; split <;> rfl
  all_goals rfl

/-! ### The stack (R100, R101) -/

/-- A push writes the high byte at `sp - 1` and then the low byte at `sp - 2`, and moves SP by 2. -/
theorem push16_eq (v : Word) :
    push16 v s = andThen (memWrite (s.sp - 1) (hiByte v) s) fun t =>
      andThen (memWrite (s.sp - 2) (loByte v) t) fun w => .next { w with sp := s.sp - 2 } := by
  have hsp : s.sp - 1 - 1 = s.sp - 2 := by bv_omega
  have h1 := memWrite_registers s (s.sp - 1) (hiByte v) s.regs (s.sp - 1) s.pc s.out.cycles
  unfold push16
  change andThen (memWrite (s.sp - 1) (hiByte v) { s with sp := s.sp - 1 }) _ = _
  rw [show ({ s with sp := s.sp - 1 } : State) =
    { s with regs := s.regs, sp := s.sp - 1, pc := s.pc, out := { s.out with cycles := s.out.cycles } } from rfl, h1]
  cases hw : memWrite (s.sp - 1) (hiByte v) s with
  | fault f => rfl
  | refused r => rfl
  | next t =>
    obtain ⟨⟨hr, -, hpc, -⟩, -, hc, -⟩ := memWrite_keeps s hw
    simp only [andThen_next, hsp]
    have h2 := memWrite_registers t (s.sp - 2) (loByte v) t.regs (s.sp - 2) t.pc t.out.cycles
    rw [← hr, ← hpc, ← hc]
    change memWrite (s.sp - 2) (loByte v)
      { t with regs := t.regs, sp := s.sp - 2, pc := t.pc, out := { t.out with cycles := t.out.cycles } } = _
    rw [h2]
    cases hx : memWrite (s.sp - 2) (loByte v) t with
    | fault f => rfl
    | refused r => rfl
    | next w =>
      obtain ⟨⟨hr, -, hpc, -⟩, -, hc, -⟩ := memWrite_keeps t hx
      simp only [andThen_next]
      rw [← hr, ← hpc, ← hc]

/-- A push does not look at the halted state or the halt bug, and carries them along. -/
theorem push16_control (v : Word) (x y : Bool) :
    push16 v { s with irq := { s.irq with halted := x, hbPending := y } } =
      andThen (push16 v s) fun t => .next { t with irq := { t.irq with halted := x, hbPending := y } } := by
  rw [push16_eq, push16_eq]
  simp only [memWrite_control]
  cases hw : memWrite (s.sp - 1) (hiByte v) s with
  | fault f => rfl
  | refused r => rfl
  | next t =>
    simp only [andThen_next, memWrite_control]
    cases hx : memWrite (s.sp - 2) (loByte v) t <;> rfl

/-- What a push that is not refused does. -/
theorem push16_completes (v : Word) (h : mayPush s = true) :
    ∃ t, push16 v s = .next t ∧ pushed s v t ∧ t.pc = s.pc := by
  simp only [mayPush, Bool.and_eq_true] at h
  obtain ⟨u, hu⟩ := memWrite_completes s (hiByte v) h.1
  obtain ⟨hcu, hsu, -⟩ := memWrite_keeps s hu
  obtain ⟨w, hw⟩ := memWrite_completes u (a := s.sp - 2) (loByte v) (by rw [mayWrite_congr s hsu.2.2.1]; exact h.2)
  obtain ⟨hcw, -⟩ := memWrite_keeps u hw
  have ht : push16 v s = .next { w with sp := s.sp - 2 } := by rw [push16_eq, hu, andThen_next, hw, andThen_next]
  have ho : onlyRegisters w { w with sp := s.sp - 2 } := rfl
  have hab : s.sp - 2 = s.sp - 1 + 1 ∨ s.sp - 1 = s.sp - 2 + 1 := .inr (by bv_omega)
  have hh := holds_two s hab hu hw
  refine ⟨_, ht, ⟨⟨u, w, hu, hw, ho⟩, ?_, rfl, ?_, ?_, ?_⟩, ?_⟩
  · exact hcw.1.trans hcu.1
  · exact memoryKept_onlyRegisters s (memoryKept_two s hu hw) ho
  · exact holds_onlyRegisters s hh.1 ho
  · exact holds_onlyRegisters s hh.2 ho
  · exact hcw.2.2.1.trans hcu.2.2.1

/-- A push is refused exactly where one of its writes is. -/
theorem push16_refused (v : Word) (h : mayPush s = false) : push16 v s = .refused .dmaUnmodelled := by
  rw [push16_eq]
  rcases memWrite_outcome s (s.sp - 1) (hiByte v) with ⟨u, hu⟩ | ⟨-, hu⟩
  · rw [hu, andThen_next]
    obtain ⟨-, hsu, -⟩ := memWrite_keeps s hu
    have h1 := mayWrite_of_memWrite s hu
    simp only [mayPush, h1, Bool.true_and] at h
    rcases memWrite_outcome u (s.sp - 2) (loByte v) with ⟨w, hw⟩ | ⟨-, hw⟩
    · have := mayWrite_of_memWrite u hw
      rw [mayWrite_congr s hsu.2.2.1, h] at this
      cases this
    · rw [hw]; rfl
  · rw [hu]; rfl

/-- Where a push ends: in one of its two states, or in a refusal. -/
theorem push16_outcome (v : Word) :
    (∃ t, push16 v s = .next t ∧ pushed s v t ∧ t.pc = s.pc) ∨
    (mayPush s = false ∧ push16 v s = .refused .dmaUnmodelled) := by
  cases h : mayPush s with
  | true => exact .inl (push16_completes s v h)
  | false => exact .inr ⟨rfl, push16_refused s v h⟩

theorem noteRead_sp (a x : Word) :
    State.noteRead { s with sp := x } a = { s.noteRead a with sp := x } := by
  unfold State.noteRead
  cases hr : regionOf a <;> try rfl
  · change (if s.extRamOpen = true then _ else _) = _
    simp only
    split <;> rfl
  · cases hi : ioRegOf a <;> rfl

/-- A pop reads the low byte at `sp` and then the high byte at `sp + 1`, and moves SP by 2. -/
theorem pop16_eq : pop16 s = (popWord s, { afterPop s with sp := s.sp + 2 }) := by
  have hsp : s.sp + 1 + 1 = s.sp + 2 := by bv_omega
  have hk := (noteRead_keeps s s.sp).2.1
  unfold pop16 popWord afterPop
  simp only [memRead, hk, noteRead_sp, hsp]
  rfl

theorem afterPop_keeps :
    (afterPop s).regs = s.regs ∧ (afterPop s).sp = s.sp ∧ (afterPop s).pc = s.pc ∧
    (afterPop s).start = s.start ∧ (afterPop s).irq = s.irq ∧ (afterPop s).ppu = s.ppu ∧
    (afterPop s).mapper = s.mapper ∧ (afterPop s).bootMapped = s.bootMapped ∧ (afterPop s).mem = s.mem ∧
    (afterPop s).aud = s.aud ∧ sameSetting s (afterPop s) ∧ (afterPop s).out.frame = s.out.frame := by
  refine ⟨?_, ?_, ?_, ?_, ?_, ?_, ?_, ?_, ?_, ?_, ⟨?_, ?_, ?_, ?_, ?_, ?_⟩, ?_⟩ <;> try simp [afterPop]
  exact (noteRead_outs (s.noteRead s.sp) (s.sp + 1)).2.trans (noteRead_outs s s.sp).2

theorem readByte_afterPop {b : Word} (hx : isExternal b = false) : (afterPop s).readByte b = s.readByte b := by
  unfold afterPop
  rw [readByte_noteRead _ _ hx, readByte_noteRead _ _ hx]

/-- A change of registers after a pop keeps memory. -/
theorem memoryKept_pop {t : State} (h : onlyRegisters (afterPop s) t) : memoryKept s t [] := fun b hx _ =>
  (readByte_onlyRegisters _ h b).trans (readByte_afterPop s hx)

/-- A change of registers after one read keeps memory. -/
theorem memoryKept_read {t : State} {a : Word} (h : onlyRegisters (s.noteRead a) t) : memoryKept s t [] :=
  fun b hx _ => (readByte_onlyRegisters _ h b).trans (readByte_noteRead s a hx)

end Sys2Proof.Machine
end

