-- ==== Sys2Proof/Laws/Exec.lean ====
section
/-! SUPPORT. For each shared operation of the instruction set, one lemma that says once everything it can
do: where it completes, that it never faults, where it is refused, what it keeps, its cycle count and what it
does to the interrupt and execution control. -/

namespace Sys2Proof.Machine

variable (s : State)

/-! ### What every instruction keeps -/

/-- The display is at a legal position and its LY = LYC bit is up to date. -/
def displayOk (p : Ppu) : Prop := p.positionOk = true ∧ p.lycEq = decide (p.ly = p.lyc)

/-- The invariants and the settings that no instruction breaks. -/
structure Kept (s t : State) : Prop where
  setting : sameSetting s t
  start : t.start = s.start
  frame : t.out.frame = s.out.frame
  sel : t.ppu.sel = s.ppu.sel
  fb : t.ppu.fb = s.ppu.fb
  ram : ramWf s.cart s.mem = true → ramWf t.cart t.mem = true
  aud : audWf s.aud = true → audWf t.aud = true
  display : displayOk s.ppu → displayOk t.ppu
  boot : s.bootMapped = false → t.bootMapped = false

/-- Memory, the mapper, the PPU and the interrupt registers are those of `s`. -/
def quiet (s t : State) : Prop :=
  t.mem = s.mem ∧ t.aud = s.aud ∧ t.mapper = s.mapper ∧ t.ppu = s.ppu ∧ t.bootMapped = s.bootMapped ∧
  t.irq.ifr = s.irq.ifr ∧ t.irq.ie = s.irq.ie

/-- The interrupt and execution control but IF and IE. -/
def Irq.ctl (q : Irq) : Bool × Nat × Bool × Bool := (q.ime, q.eiDelay, q.halted, q.hbPending)

theorem sameSetting_trans {t u : State} (h : sameSetting s t) (g : sameSetting t u) : sameSetting s u := by
  obtain ⟨h1, h2, h3, h4, h5, h6⟩ := h
  obtain ⟨g1, g2, g3, g4, g5, g6⟩ := g
  exact ⟨g1.trans h1, g2.trans h2, g3.trans h3, g4.trans h4, g5.trans h5, g6.trans h6⟩

theorem kept_trans {t u : State} (h : Kept s t) (g : Kept t u) : Kept s u where
  setting := sameSetting_trans s h.setting g.setting
  start := g.start.trans h.start
  frame := g.frame.trans h.frame
  sel := g.sel.trans h.sel
  fb := g.fb.trans h.fb
  ram := fun x => g.ram (h.ram x)
  aud := fun x => g.aud (h.aud x)
  display := fun x => g.display (h.display x)
  boot := fun x => g.boot (h.boot x)

theorem kept_of_quiet {t : State} (h : quiet s t) (hs : sameSetting s t) (hst : t.start = s.start)
    (hf : t.out.frame = s.out.frame) : Kept s t := by
  obtain ⟨h1, h2, -, h4, h5, -⟩ := h
  refine ⟨hs, hst, hf, ?_, ?_, ?_, ?_, ?_, ?_⟩
  · rw [h4]
  · rw [h4]
  · rw [h1, hs.1]; exact id
  · rw [h2]; exact id
  · rw [h4]; exact id
  · rw [h5]; exact id

theorem kept_onlyRegisters {t : State} (h : onlyRegisters s t) : Kept s t := by
  rw [h]
  exact kept_of_quiet s ⟨rfl, rfl, rfl, rfl, rfl, rfl, rfl⟩ ⟨rfl, rfl, rfl, rfl, rfl, rfl⟩ rfl rfl

theorem quiet_onlyRegisters {t : State} (h : onlyRegisters s t) : quiet s t := by
  rw [h]
  exact ⟨rfl, rfl, rfl, rfl, rfl, rfl, rfl⟩

theorem ctl_onlyRegisters {t : State} (h : onlyRegisters s t) : t.irq.ctl = s.irq.ctl := by rw [h]

theorem quiet_noteRead (a : Word) : quiet s (s.noteRead a) := by simp [quiet]

theorem kept_noteRead (a : Word) : Kept s (s.noteRead a) :=
  kept_of_quiet s (quiet_noteRead s a) (by simp [sameSetting]) (by simp) (noteRead_outs s a).2

/-! ### Writes -/

theorem writeLcdc_display {p : Ppu} (v : Byte) (h : displayOk p) : displayOk (p.writeLcdc v) := by
  unfold displayOk at *
  unfold Ppu.writeLcdc
  split
  · next hv =>
    simp only [Ppu.positionOk] at h ⊢
    rw [hv] at h
    exact h
  · refine ⟨?_, decide_eq_decide.mpr eq_comm⟩
    cases hl : v.getLsbD 7 <;> simp only [Ppu.positionOk, hl] <;> rfl

theorem writeLyc_display {p : Ppu} (v : Byte) (h : displayOk p) : displayOk (p.writeLyc v) := ⟨h.1, rfl⟩

theorem kept_memWrite {a : Word} {v : Byte} {t : State} (h : memWrite a v s = .next t) : Kept s t := by
  obtain ⟨hc, hs, -, hf⟩ := memWrite_keeps s h
  refine ⟨hs, hc.2.2.2.1, hf, ?_, ?_, memWrite_ramWf s h, memWrite_audWf s h, ?_, ?_⟩
  all_goals
    have hd := dmaCopy_keeps { s with ppu := { s.ppu with dma := v } } v 0 160
    unfold memWrite at h
    cases hr : regionOf a <;> simp only [hr] at h
  case io | io | io | io =>
    unfold writeIo at h
    cases hi : ioRegOf a <;> simp only [hi] at h
    case dma =>
      cases hp : s.params.dma <;> simp only [hp] at h
      · cases h
      · rw [Host.Outcome.next.injEq] at h
        obtain ⟨-, -, -, -, -, h6, -, h8, -⟩ := hd
        rw [← h]
        first
        | (rw [h6]; done)
        | (rw [h6]; exact id)
        | (rw [h8]; exact id)
    case lcdc =>
      cases h
      first
      | exact (writeLcdc_keeps s.ppu v).2.2.2.2.2.2.2.2.2.2.2.1
      | exact (writeLcdc_keeps s.ppu v).2.2.2.2.2.2.2.2.2.2.2.2
      | exact writeLcdc_display v
      | exact id
    case lyc => cases h; first | rfl | exact writeLyc_display v | exact id
    case boot => cases h; split <;> first | rfl | exact id | exact fun _ => rfl
    all_goals cases h; first | rfl | exact id
  case romFixed | romSwitch | romFixed | romSwitch | romFixed | romSwitch | romFixed | romSwitch =>
    cases h
    unfold mapperWrite
    split <;> first | rfl | exact id
  case extRam | extRam | extRam | extRam => cases h; split <;> first | rfl | exact id
  all_goals cases h; first | rfl | exact id

theorem ctl_memWrite {a : Word} {v : Byte} {t : State} (h : memWrite a v s = .next t) :
    t.irq.ctl = s.irq.ctl := by
  obtain ⟨⟨-, -, -, -, h1, h2, h3, h4⟩, -⟩ := memWrite_keeps s h
  simp [Irq.ctl, h1, h2, h3, h4]

/-! ### The operations -/

/-- The low nibble of F is 0 (R24). -/
def lowZero (g : Regs) : Prop := g.f &&& 0x0F#8 = 0#8

/-- Everything an operation in `s` can do that stores to `as`, costs `n` and leaves the control `c`. -/
structure OpSpec (s : State) (as : List Word) (n : Nat) (c : Bool × Nat × Bool × Bool) (o : Outcome) : Prop where
  completes : as.all (mayWrite s) = true → ∃ t, o = .next t
  noFault : ∀ f, o ≠ .fault f
  refusal : ∀ r, o = .refused r → as.all (mayWrite s) = false ∧ r = .dmaUnmodelled
  allowed : ∀ t, o = .next t → as.all (mayWrite s) = true
  next : ∀ t, o = .next t → memoryKept s t as ∧ Kept s t ∧ (as = [] → quiet s t) ∧ t.out.cycles = n ∧
    t.irq.ctl = c ∧ (lowZero s.regs → lowZero t.regs)

/-- `u` is `s` after reads: the reports and the history of the external devices may be longer. -/
structure AfterReads (s u : State) : Prop where
  kept : Kept s u
  quiet : quiet s u
  regs : u.regs = s.regs
  ctl : u.irq.ctl = s.irq.ctl
  reads : ∀ b, isExternal b = false → u.readByte b = s.readByte b

theorem afterReads_refl : AfterReads s s :=
  ⟨kept_onlyRegisters s rfl, quiet_onlyRegisters s rfl, rfl, rfl, fun _ _ => rfl⟩

theorem afterReads_noteRead {u : State} (h : AfterReads s u) (a : Word) : AfterReads s (u.noteRead a) where
  kept := kept_trans s h.kept (kept_noteRead u a)
  quiet := by
    obtain ⟨h1, h2, h3, h4, h5, h6, h7⟩ := h.quiet
    simp [Machine.quiet, *]
  regs := by simp [h.regs]
  ctl := by simp [h.ctl]
  reads := fun b hb => (readByte_noteRead u a hb).trans (h.reads b hb)

theorem afterReads_operand (r : Operand8) : AfterReads s (operandState r s) := by
  cases r with
  | reg q => exact afterReads_refl s
  | atHL => exact afterReads_noteRead s (afterReads_refl s) s.hl

theorem afterReads_pop : AfterReads s (afterPop s) :=
  afterReads_noteRead s (afterReads_noteRead s (afterReads_refl s) s.sp) (s.sp + 1)

/-- An operation that reads and then changes registers. -/
theorem opSpec_read {u t : State} {n : Nat} (h : AfterReads s u) (ho : onlyRegisters u t)
    (hn : t.out.cycles = n) (hl : lowZero u.regs → lowZero t.regs) :
    OpSpec s [] n s.irq.ctl (.next t) := by
  refine ⟨fun _ => ⟨t, rfl⟩, fun f hf => (by cases hf), fun r hr => (by cases hr), fun _ _ => rfl,
    fun w hw => ?_⟩
  cases hw
  refine ⟨fun b hb _ => (readByte_onlyRegisters u ho b).trans (h.reads b hb),
    kept_trans s h.kept (kept_onlyRegisters u ho), fun _ => ?_, hn, (ctl_onlyRegisters u ho).trans h.ctl,
    fun hs => hl (by rw [h.regs]; exact hs)⟩
  rw [ho]
  exact h.quiet

/-- An operation that changes registers. -/
theorem opSpec_registers {t : State} {n : Nat} (ho : onlyRegisters s t) (hn : t.out.cycles = n)
    (hl : lowZero s.regs → lowZero t.regs) : OpSpec s [] n s.irq.ctl (.next t) :=
  opSpec_read s (afterReads_refl s) ho hn hl

/-- An operation that reads, stores one byte and then changes registers. -/
theorem opSpec_store {u : State} {a : Word} {v : Byte} {n : Nat} (h : AfterReads s u) (k : State → State)
    (ho : ∀ w, onlyRegisters w (k w)) (hn : ∀ w, (k w).out.cycles = n)
    (hl : ∀ w, lowZero w.regs → lowZero (k w).regs) :
    OpSpec s [a] n s.irq.ctl (andThen (memWrite a v u) fun w => .next (k w)) := by
  have hp : u.params = s.params := h.kept.setting.2.2.1
  have hc : u.cart = s.cart := h.kept.setting.1
  have hm : u.mapper = s.mapper := h.quiet.2.2.1
  have hmw : mayWrite u a = mayWrite s a := mayWrite_congr s hp a
  refine ⟨fun hw => ?_, fun f hf => ?_, fun r hr => ?_, fun t ht => ?_, fun t ht => ?_⟩
  · obtain ⟨w, hw⟩ := memWrite_completes u (a := a) v (by rw [hmw]; simpa using hw)
    exact ⟨k w, by rw [hw, andThen_next]⟩
  · rcases memWrite_outcome u a v with ⟨w, hw⟩ | ⟨-, hw⟩ <;> rw [hw] at hf <;> cases hf
  · rcases memWrite_outcome u a v with ⟨w, hw⟩ | ⟨hw', hw⟩ <;> rw [hw] at hr <;> cases hr
    exact ⟨by rw [hmw] at hw'; simpa using hw', rfl⟩
  · obtain ⟨w, hw, -⟩ := andThen_eq_next ht
    have := mayWrite_of_memWrite u hw
    rw [hmw] at this
    simpa using this
  · obtain ⟨w, hw, hk⟩ := andThen_eq_next ht
    cases hk
    obtain ⟨⟨hr, -⟩, -⟩ := memWrite_keeps u hw
    refine ⟨fun b hb hb' => ?_, kept_trans s h.kept (kept_trans u (kept_memWrite u hw)
      (kept_onlyRegisters w (ho w))), fun hc => (by cases hc), hn w,
      (ctl_onlyRegisters w (ho w)).trans ((ctl_memWrite u hw).trans h.ctl),
      fun hs => hl w (by rw [hr, h.regs]; exact hs)⟩
    rw [readByte_onlyRegisters w (ho w) b, readByte_memWrite u hw hb, h.reads b hb]
    rw [touches_congr s hm hc hp]
    exact hb' a (List.mem_singleton.mpr rfl)

/-- An operation that pushes and then changes registers. -/
theorem opSpec_push {v : Word} {n : Nat} (k : State → State) (ho : ∀ w, onlyRegisters w (k w))
    (hn : ∀ w, (k w).out.cycles = n) (hl : ∀ w, lowZero w.regs → lowZero (k w).regs) :
    OpSpec s (pushStores s) n s.irq.ctl (andThen (push16 v s) fun w => .next (k w)) := by
  have hall : (pushStores s).all (mayWrite s) = mayPush s := by simp [pushStores, mayPush]
  refine ⟨fun hw => ?_, fun f hf => ?_, fun r hr => ?_, fun t ht => ?_, fun t ht => ?_⟩
  · obtain ⟨w, hw, -⟩ := push16_completes s v (hall ▸ hw)
    exact ⟨k w, by rw [hw, andThen_next]⟩
  · rcases push16_outcome s v with ⟨w, hw, -⟩ | ⟨-, hw⟩ <;> rw [hw] at hf <;> cases hf
  · rcases push16_outcome s v with ⟨w, hw, -⟩ | ⟨hw', hw⟩ <;> rw [hw] at hr <;> cases hr
    exact ⟨hall.trans hw', rfl⟩
  · rw [hall]
    cases hm : mayPush s with
    | true => rfl
    | false => rw [push16_refused s v hm] at ht; cases ht
  · obtain ⟨w, hw, hk⟩ := andThen_eq_next ht
    cases hk
    rcases push16_outcome s v with ⟨w', hw', ⟨⟨x, y, hx, hy, hxy⟩, hreg, -, hm, -, -⟩, -⟩ | ⟨-, hw'⟩
    · rw [hw'] at hw
      cases hw
      have hoo := onlyRegisters_trans y hxy (ho w)
      exact ⟨memoryKept_onlyRegisters s hm (ho w), kept_trans s (kept_memWrite s hx)
        (kept_trans x (kept_memWrite x hy) (kept_onlyRegisters y hoo)), fun hc => (by cases hc), hn w,
        (ctl_onlyRegisters y hoo).trans ((ctl_memWrite x hy).trans (ctl_memWrite s hx)),
        fun hs => hl w (by rw [hreg]; exact hs)⟩
    · rw [hw'] at hw; cases hw

/-! ### Loads and stack transfers (40_load) -/

theorem low_setReg {r : Reg8} {v : Byte} (h : lowZero s.regs) : lowZero (s.setReg r v).regs := by
  cases r <;> exact h

theorem low_setReg16 {rr : Reg16} {v : Word} (h : lowZero s.regs) : lowZero (s.setReg16 rr v).regs := by
  cases rr <;> exact h

theorem low_setFlags (g : Flags) : lowZero (s.setFlags g).regs := toByte_low g

theorem only_setReg16 (rr : Reg16) (v : Word) (n : Nat) : onlyRegisters s ((s.setReg16 rr v).cost n) := by
  cases rr <;> rfl

theorem opSpec_loadReg (r q : Reg8) : OpSpec s [] 4 s.irq.ctl (loadReg r q s) :=
  opSpec_registers s (t := (s.setReg r (s.reg q)).cost 4) rfl rfl (low_setReg s)

theorem opSpec_loadImm (r : Reg8) (n : Byte) : OpSpec s [] 8 s.irq.ctl (loadImm r n s) :=
  opSpec_registers s (t := (s.setReg r n).cost 8) rfl rfl (low_setReg s)

theorem opSpec_loadMem (r : Reg8) (a : Word) (n : Nat) : OpSpec s [] n s.irq.ctl (loadMem r a n s) :=
  opSpec_read s (t := ((s.noteRead a).setReg r (s.readByte a)).cost n)
    (afterReads_noteRead s (afterReads_refl s) a) rfl rfl (low_setReg _)

theorem opSpec_storeMem (a : Word) (v : Byte) (n : Nat) : OpSpec s [a] n s.irq.ctl (storeMem a v n s) :=
  opSpec_store s (afterReads_refl s) (fun w => w.cost n) (fun _ => rfl) (fun _ => rfl) (fun _ h => h)

theorem opSpec_loadMemStep (d : Word) : OpSpec s [] 8 s.irq.ctl (loadMemStep d s) :=
  opSpec_read s (t := (((s.noteRead s.hl).setReg .a (s.readByte s.hl)).setReg16 .hl (s.hl + d)).cost 8)
    (afterReads_noteRead s (afterReads_refl s) s.hl) rfl rfl (fun h => h)

theorem opSpec_storeMemStep (d : Word) : OpSpec s [s.hl] 8 s.irq.ctl (storeMemStep d s) :=
  opSpec_store s (afterReads_refl s) (fun w => (w.setReg16 .hl (s.hl + d)).cost 8) (fun _ => rfl)
    (fun _ => rfl) (fun _ h => h)

theorem opSpec_loadR16 (rr : Reg16) (nn : Word) : OpSpec s [] 12 s.irq.ctl (loadR16 rr nn s) :=
  opSpec_registers s (t := (s.setReg16 rr nn).cost 12) (only_setReg16 s rr nn 12) rfl (low_setReg16 s)

theorem opSpec_storeSp (a : Word) : OpSpec s [a, a + 1] 20 s.irq.ctl (storeSp a s) := by
  unfold storeSp
  have hall : [a, a + 1].all (mayWrite s) = (mayWrite s a && mayWrite s (a + 1)) := by simp
  have hb : ∀ {w}, memWrite a (loByte s.sp) s = .next w → mayWrite w (a + 1) = mayWrite s (a + 1) := fun hw =>
    mayWrite_congr s (memWrite_keeps s hw).2.1.2.2.1 _
  refine ⟨fun hw => ?_, fun f hf => ?_, fun r hr => ?_, fun t ht => ?_, fun t ht => ?_⟩
  · rw [hall, Bool.and_eq_true] at hw
    obtain ⟨w, h1⟩ := memWrite_completes s (loByte s.sp) hw.1
    obtain ⟨x, h2⟩ := memWrite_completes w (hiByte w.sp) ((hb h1).trans hw.2)
    exact ⟨x.cost 20, by rw [h1, andThen_next, h2, andThen_next]⟩
  · rcases memWrite_outcome s a (loByte s.sp) with ⟨w, hw⟩ | ⟨-, hw⟩ <;> rw [hw] at hf
    · rw [andThen_next] at hf
      rcases memWrite_outcome w (a + 1) (hiByte w.sp) with ⟨x, hx⟩ | ⟨-, hx⟩ <;> rw [hx] at hf <;> cases hf
    · cases hf
  · rcases memWrite_outcome s a (loByte s.sp) with ⟨w, hw⟩ | ⟨h1, hw⟩ <;> rw [hw] at hr
    · rw [andThen_next] at hr
      rcases memWrite_outcome w (a + 1) (hiByte w.sp) with ⟨x, hx⟩ | ⟨h2, hx⟩ <;> rw [hx] at hr <;> cases hr
      rw [hb hw] at h2
      exact ⟨by rw [hall, h2, Bool.and_false], rfl⟩
    · cases hr
      exact ⟨by rw [hall, h1, Bool.false_and], rfl⟩
  · obtain ⟨w, hw, ht⟩ := andThen_eq_next ht
    obtain ⟨x, hx, -⟩ := andThen_eq_next ht
    rw [hall, mayWrite_of_memWrite s hw, ← hb hw, mayWrite_of_memWrite w hx]; rfl
  · obtain ⟨w, hw, ht⟩ := andThen_eq_next ht
    obtain ⟨x, hx, hk⟩ := andThen_eq_next ht
    cases hk
    obtain ⟨⟨h1, -⟩, -⟩ := memWrite_keeps s hw
    obtain ⟨⟨h2, -⟩, -⟩ := memWrite_keeps w hx
    exact ⟨memoryKept_onlyRegisters s (memoryKept_two s hw hx) (u := x.cost 20) rfl,
      kept_trans s (kept_memWrite s hw) (kept_trans w (kept_memWrite w hx)
        (kept_onlyRegisters x (t := x.cost 20) rfl)), fun hc => (by cases hc), rfl,
      (ctl_memWrite w hx).trans (ctl_memWrite s hw), fun hs => by
        show lowZero x.regs
        rw [h2, h1]; exact hs⟩

theorem opSpec_spFromHl : OpSpec s [] 8 s.irq.ctl (spFromHl s) :=
  opSpec_registers s (t := State.cost { s with sp := s.hl } 8) rfl rfl (fun h => h)

theorem opSpec_pushReg (rr : StkReg) : OpSpec s (pushStores s) 16 s.irq.ctl (pushReg rr s) :=
  opSpec_push s (fun w => w.cost 16) (fun _ => rfl) (fun _ => rfl) (fun _ h => h)

theorem opSpec_popReg (rr : StkReg) : OpSpec s [] 12 s.irq.ctl (popReg rr s) := by
  have h : popReg rr s =
      .next ((State.setStkReg { afterPop s with sp := s.sp + 2 } rr (popWord s)).cost 12) := by
    rw [popReg, pop16_eq]
  rw [h]
  refine opSpec_read s (afterReads_pop s) ?_ rfl ?_
  · cases rr <;> rfl
  · cases rr <;> intro hl <;> try exact hl
    show (loByte (popWord s) &&& 0xF0#8) &&& 0x0F#8 = 0#8
    generalize loByte (popWord s) = x
    rw [BitVec.and_assoc]
    simp

/-! ### 8-bit and 16-bit arithmetic (41_alu8, 42_alu16) -/

theorem only_alu (op : Alu) (v : Byte) (n : Nat) : onlyRegisters s ((aluApply op v s).cost n) := by
  unfold aluApply
  cases aluWritesA op <;> rfl

theorem opSpec_aluOperand (op : Alu) (r : Operand8) :
    OpSpec s [] (costOf r 4 8) s.irq.ctl (aluOperand op r s) := by
  unfold aluOperand
  rw [get8_eq]
  exact opSpec_read s (afterReads_operand s r) (only_alu _ op _ _) rfl (fun _ => low_setFlags _ _)

theorem opSpec_aluImm (op : Alu) (n : Byte) : OpSpec s [] 8 s.irq.ctl (aluImm op n s) :=
  opSpec_registers s (only_alu s op n 8) rfl (fun _ => low_setFlags _ _)

/-- A read of an r8 operand, a write back to it and a change of registers. -/
theorem opSpec_modify (r : Operand8) (v : Byte) (n : Nat) (k : State → State)
    (ho : ∀ w, onlyRegisters w (k w)) (hn : ∀ w, (k w).out.cycles = n)
    (hl : ∀ w, lowZero w.regs → lowZero (k w).regs) :
    OpSpec s (operandStore r s) n s.irq.ctl
      (andThen (set8 r v (operandState r s)) fun w => .next (k w)) := by
  cases r with
  | reg q =>
    exact opSpec_registers s (onlyRegisters_trans s (t := s.setReg q v) rfl (ho _)) (hn _)
      (fun h => hl _ (low_setReg s h))
  | atHL =>
    have hh : (s.noteRead s.hl).hl = s.hl := hl_congr s (by simp)
    simp only [set8, operandState, hh]
    exact opSpec_store s (afterReads_operand s .atHL) k ho hn hl

theorem flags_operandState (r : Operand8) : (operandState r s).flags = s.flags :=
  flags_congr s (afterReads_operand s r).regs

theorem opSpec_incOperand (r : Operand8) :
    OpSpec s (operandStore r s) (costOf r 4 12) s.irq.ctl (incOperand r s) := by
  unfold incOperand
  rw [get8_eq]
  exact opSpec_modify s r _ _ (fun w => (w.setFlags _).cost _) (fun _ => rfl) (fun _ => rfl)
    (fun w _ => low_setFlags w _)

theorem opSpec_decOperand (r : Operand8) :
    OpSpec s (operandStore r s) (costOf r 4 12) s.irq.ctl (decOperand r s) := by
  unfold decOperand
  rw [get8_eq]
  exact opSpec_modify s r _ _ (fun w => (w.setFlags _).cost _) (fun _ => rfl) (fun _ => rfl)
    (fun w _ => low_setFlags w _)

theorem opSpec_decimalAdjust : OpSpec s [] 4 s.irq.ctl (decimalAdjust s) :=
  opSpec_registers s (t := ((s.setReg .a _).setFlags _).cost 4) rfl rfl (fun _ => low_setFlags _ _)

theorem opSpec_complementA : OpSpec s [] 4 s.irq.ctl (complementA s) :=
  opSpec_registers s (t := ((s.setReg .a _).setFlags _).cost 4) rfl rfl (fun _ => low_setFlags _ _)

theorem opSpec_setCarry : OpSpec s [] 4 s.irq.ctl (setCarry s) :=
  opSpec_registers s (t := (s.setFlags _).cost 4) rfl rfl (fun _ => low_setFlags _ _)

theorem opSpec_complementCarry : OpSpec s [] 4 s.irq.ctl (complementCarry s) :=
  opSpec_registers s (t := (s.setFlags _).cost 4) rfl rfl (fun _ => low_setFlags _ _)

theorem opSpec_incPair (rr : Reg16) : OpSpec s [] 8 s.irq.ctl (incPair rr s) :=
  opSpec_registers s (only_setReg16 s rr _ 8) rfl (low_setReg16 s)

theorem opSpec_decPair (rr : Reg16) : OpSpec s [] 8 s.irq.ctl (decPair rr s) :=
  opSpec_registers s (only_setReg16 s rr _ 8) rfl (low_setReg16 s)

theorem opSpec_addHlPair (rr : Reg16) : OpSpec s [] 8 s.irq.ctl (addHlPair rr s) :=
  opSpec_registers s (t := ((s.setReg16 .hl _).setFlags _).cost 8) rfl rfl (fun _ => low_setFlags _ _)

theorem opSpec_addSpOffset (e : Byte) : OpSpec s [] 16 s.irq.ctl (addSpOffset e s) :=
  opSpec_registers s (t := ((s.setReg16 .sp _).setFlags _).cost 16) rfl rfl (fun _ => low_setFlags _ _)

theorem opSpec_hlFromSpOffset (e : Byte) : OpSpec s [] 12 s.irq.ctl (hlFromSpOffset e s) :=
  opSpec_registers s (t := ((s.setReg16 .hl _).setFlags _).cost 12) rfl rfl (fun _ => low_setFlags _ _)

/-! ### Rotates, shifts and bits (43_bitops) -/

theorem opSpec_rotateA (op : Rot) : OpSpec s [] 4 s.irq.ctl (rotateA op s) :=
  opSpec_registers s (t := ((s.setReg .a _).setFlags _).cost 4) rfl rfl (fun _ => low_setFlags _ _)

theorem opSpec_rotateOperand (op : Rot) (r : Operand8) :
    OpSpec s (operandStore r s) (costOf r 8 16) s.irq.ctl (rotateOperand op r s) := by
  unfold rotateOperand
  rw [get8_eq]
  exact opSpec_modify s r _ _ (fun w => (w.setFlags _).cost _) (fun _ => rfl) (fun _ => rfl)
    (fun w _ => low_setFlags w _)

theorem opSpec_testBit (b : Fin 8) (r : Operand8) : OpSpec s [] (costOf r 8 12) s.irq.ctl (testBit b r s) := by
  unfold testBit
  rw [get8_eq]
  exact opSpec_read s (afterReads_operand s r) (t := ((operandState r s).setFlags _).cost _) rfl rfl
    (fun _ => low_setFlags _ _)

theorem opSpec_resetBitOf (b : Fin 8) (r : Operand8) :
    OpSpec s (operandStore r s) (costOf r 8 16) s.irq.ctl (resetBitOf b r s) := by
  unfold resetBitOf
  rw [get8_eq]
  exact opSpec_modify s r _ _ (fun w => w.cost _) (fun _ => rfl) (fun _ => rfl) (fun _ h => h)

theorem opSpec_setBitOf (b : Fin 8) (r : Operand8) :
    OpSpec s (operandStore r s) (costOf r 8 16) s.irq.ctl (setBitOf b r s) := by
  unfold setBitOf
  rw [get8_eq]
  exact opSpec_modify s r _ _ (fun w => w.cost _) (fun _ => rfl) (fun _ => rfl) (fun _ h => h)

/-! ### Control transfer (44_control) -/

theorem opSpec_cost (n : Nat) : OpSpec s [] n s.irq.ctl (.next (s.cost n)) :=
  opSpec_registers s (t := s.cost n) rfl rfl (fun h => h)

theorem opSpec_jump (a : Word) (n : Nat) : OpSpec s [] n s.irq.ctl (jump a n s) :=
  opSpec_registers s (t := State.cost { s with pc := a } n) rfl rfl (fun h => h)

theorem opSpec_jumpIf (cc : Cond) (a : Word) :
    OpSpec s [] (if condHolds cc s.flags then 16 else 12) s.irq.ctl (jumpIf cc a s) := by
  unfold jumpIf
  split
  · exact opSpec_jump s a 16
  · exact opSpec_cost s 12

theorem opSpec_jumpRelIf (cc : Cond) (e : Byte) :
    OpSpec s [] (if condHolds cc s.flags then 12 else 8) s.irq.ctl (jumpRelIf cc e s) := by
  unfold jumpRelIf
  split
  · exact opSpec_jump s _ 12
  · exact opSpec_cost s 8

theorem opSpec_call (a : Word) (n : Nat) : OpSpec s (pushStores s) n s.irq.ctl (call a n s) :=
  opSpec_push s (fun w => State.cost { w with pc := a } n) (fun _ => rfl) (fun _ => rfl) (fun _ h => h)

theorem opSpec_callIf (cc : Cond) (a : Word) :
    OpSpec s (if condHolds cc s.flags then pushStores s else []) (if condHolds cc s.flags then 24 else 12)
      s.irq.ctl (callIf cc a s) := by
  unfold callIf
  split
  · exact opSpec_call s a 24
  · exact opSpec_cost s 12

theorem opSpec_ret (n : Nat) : OpSpec s [] n s.irq.ctl (ret n s) := by
  have h : ret n s = .next (State.cost { afterPop s with sp := s.sp + 2, pc := popWord s } n) := by
    rw [ret, pop16_eq]
  rw [h]
  exact opSpec_read s (afterReads_pop s) rfl rfl (fun h => h)

theorem opSpec_retIf (cc : Cond) :
    OpSpec s [] (if condHolds cc s.flags then 20 else 8) s.irq.ctl (retIf cc s) := by
  unfold retIf
  split
  · exact opSpec_ret s 20
  · exact opSpec_cost s 8

/-! ### System instructions (45_system) -/

/-- An operation that reads, changes the control to `c` and then changes registers. -/
theorem opSpec_control {u t : State} {n : Nat} {q : Irq} (h : AfterReads s u)
    (hq : q.ifr = u.irq.ifr ∧ q.ie = u.irq.ie) (ho : onlyRegisters { u with irq := q } t)
    (hn : t.out.cycles = n) (hl : t.regs = u.regs) : OpSpec s [] n q.ctl (.next t) := by
  refine ⟨fun _ => ⟨t, rfl⟩, fun f hf => (by cases hf), fun r hr => (by cases hr), fun _ _ => rfl,
    fun w hw => ?_⟩
  cases hw
  have hqu : quiet s t := by
    obtain ⟨h1, h2, h3, h4, h5, h6, h7⟩ := h.quiet
    rw [ho]
    exact ⟨h1, h2, h3, h4, h5, hq.1.trans h6, hq.2.trans h7⟩
  have hset : sameSetting s t := by rw [ho]; exact h.kept.setting
  refine ⟨fun b hb _ => ?_, kept_of_quiet s hqu hset ?_ ?_, fun _ => hqu, hn, ?_, fun hs => ?_⟩
  · rw [← h.reads b hb]
    have hio : ∀ hb : regionOf b = .io, t.readIo b = u.readIo b := fun _ => by
      rw [ho]
      exact readIo_congr u b (by assumption) hq.1 rfl rfl rfl
    by_cases hr : regionOf b = .io
    · simpa only [State.readByte, hr] using hio hr
    · rw [ho]
      exact readByte_congr u b hr rfl rfl rfl rfl rfl rfl hq.2
  · rw [ho]; exact h.kept.start
  · rw [ho]; exact h.kept.frame
  · rw [ho]
  · rw [hl, h.regs]; exact hs

theorem opSpec_noOperation : OpSpec s [] 4 s.irq.ctl (noOperation s) := opSpec_cost s 4

/-- RETI sets IME at once (R200). -/
theorem opSpec_returnInterrupt :
    OpSpec s [] 16 (true, 0, s.irq.halted, s.irq.hbPending) (returnInterrupt s) := by
  have h : returnInterrupt s = .next (State.cost { afterPop s with
      sp := s.sp + 2, pc := popWord s, irq := { (afterPop s).irq with ime := true, eiDelay := 0 } } 16) := by
    rw [returnInterrupt, returnFromInterrupt, pop16_eq]; rfl
  have hi : (afterPop s).irq = s.irq := (afterPop_keeps s).2.2.2.2.1
  rw [h, show (true, 0, s.irq.halted, s.irq.hbPending) =
    Irq.ctl { (afterPop s).irq with ime := true, eiDelay := 0 } by rw [hi]; rfl]
  exact opSpec_control s (afterReads_pop s) ⟨rfl, rfl⟩ rfl rfl rfl

theorem opSpec_disableInterrupts :
    OpSpec s [] 4 (false, 0, s.irq.halted, s.irq.hbPending) (disableInterrupts s) :=
  opSpec_control s (q := { s.irq with ime := false, eiDelay := 0 }) (afterReads_refl s) ⟨rfl, rfl⟩
    (t := (s.setMasterEnable false).cost 4) rfl rfl rfl

/-- EI arms the countdown unless IME or a countdown is already on (R214). -/
theorem opSpec_enableInterrupts :
    OpSpec s [] 4 (s.irq.ime, if s.irq.ime = false ∧ s.irq.eiDelay = 0 then 2 else s.irq.eiDelay,
      s.irq.halted, s.irq.hbPending) (enableInterrupts s) := by
  unfold enableInterrupts State.requestDelayedEnable
  split
  · exact opSpec_control s (q := { s.irq with eiDelay := 2 }) (afterReads_refl s) ⟨rfl, rfl⟩ rfl rfl rfl
  · exact opSpec_cost s 4

/-- HALT enters the halted state or arms the halt bug (R211). -/
theorem opSpec_haltCpu :
    OpSpec s [] 4 (if s.params.haltBug = true ∧ s.irq.ime = false ∧ s.pending ≠ 0 then
        (s.irq.ime, s.irq.eiDelay, s.irq.halted, true) else (s.irq.ime, s.irq.eiDelay, true, s.irq.hbPending))
      (haltCpu s) := by
  unfold haltCpu
  by_cases h : s.params.haltBug = true ∧ s.irq.ime = false ∧ s.pending ≠ 0
  · have hb : (s.params.haltBug && !s.irq.ime && decide (s.pending ≠ 0)) = true := by
      rw [h.1, h.2.1, decide_eq_true h.2.2]; rfl
    rw [if_pos h, if_pos hb]
    exact opSpec_control s (q := { s.irq with hbPending := true }) (afterReads_refl s) ⟨rfl, rfl⟩ rfl rfl rfl
  · have hb : ¬ (s.params.haltBug && !s.irq.ime && decide (s.pending ≠ 0)) = true := by
      intro hb
      simp only [Bool.and_eq_true, Bool.not_eq_true', decide_eq_true_eq] at hb
      exact h ⟨hb.1.1, hb.1.2, hb.2⟩
    rw [if_neg h, if_neg hb]
    exact opSpec_control s (q := { s.irq with halted := true }) (afterReads_refl s) ⟨rfl, rfl⟩ rfl rfl rfl

/-- Where a store is not allowed, the operation is refused. -/
theorem OpSpec.refused {as : List Word} {n : Nat} {c : Bool × Nat × Bool × Bool} {o : Outcome} {s : State}
    (h : OpSpec s as n c o) (ha : as.all (mayWrite s) = false) : o = .refused .dmaUnmodelled := by
  cases o with
  | next t => exact absurd (h.allowed t rfl) (by rw [ha]; exact Bool.false_ne_true)
  | fault f => exact absurd rfl (h.noFault f)
  | refused r => rw [(h.refusal r rfl).2]

end Sys2Proof.Machine
end

