-- ==== Sys2Proof/Laws/Ppu.lean ====
section
/-! SUPPORT. What one tick of the PPU can do, said once, and what any number of ticks keeps. -/

namespace Sys2Proof.Machine

variable (s : State)

/-- What the PPU may write (R77, R259): IF, the frame given out, and its own line, dot, mode, compare bit,
selection and frame buffer. -/
def ppuWrote (s t : State) : Prop :=
  t = { s with irq := { s.irq with ifr := t.irq.ifr }, out := { s.out with frame := t.out.frame },
               ppu := { s.ppu with ly := t.ppu.ly, dot := t.ppu.dot, mode := t.ppu.mode,
                                   lycEq := t.ppu.lycEq, sel := t.ppu.sel, fb := t.ppu.fb } }

theorem ppuWrote_refl : ppuWrote s s := rfl

theorem ppuWrote_trans {t u : State} (h : ppuWrote s t) (g : ppuWrote t u) : ppuWrote s u := by
  unfold ppuWrote at *
  rw [g, h]

theorem ppuWrote_raiseIf (b : Bool) (i : Nat) : ppuWrote s (s.raiseIf b i) := by cases b <;> rfl

theorem ppuWrote_withMode (m : PpuMode) : ppuWrote s (s.withMode m) := rfl

theorem ppuWrote_raise (i : Nat) : ppuWrote s (s.raise i) := rfl

theorem ppuWrote_snapshot : ppuWrote s (snapshot s) := rfl

theorem ppuWrote_compareLyc : ppuWrote s (compareLyc s) :=
  ppuWrote_trans s (t := { s with ppu := { s.ppu with lycEq := decide (s.ppu.ly = s.ppu.lyc) } }) rfl
    (ppuWrote_raiseIf _ _ _)

/-- The registers of the PPU that no tick writes. -/
theorem ppuWrote_registers {t : State} (h : ppuWrote s t) :
    t.ppu.lcdc = s.ppu.lcdc ∧ t.ppu.statEn = s.ppu.statEn ∧ t.ppu.scy = s.ppu.scy ∧ t.ppu.scx = s.ppu.scx ∧
    t.ppu.lyc = s.ppu.lyc ∧ t.ppu.dma = s.ppu.dma ∧ t.ppu.bgp = s.ppu.bgp ∧ t.ppu.obp0 = s.ppu.obp0 ∧
    t.ppu.obp1 = s.ppu.obp1 ∧ t.ppu.wy = s.ppu.wy ∧ t.ppu.wx = s.ppu.wx ∧ t.mem = s.mem := by
  rw [h]
  exact ⟨rfl, rfl, rfl, rfl, rfl, rfl, rfl, rfl, rfl, rfl, rfl, rfl⟩

/-- The line after this one (R246). -/
def nextLine (ly : Byte) : Byte := if ly = 153#8 then 0 else ly + 1

/-- What the line end does once LY has moved and has been compared (R246). -/
def lineEvent (u : State) : State :=
  if u.ppu.ly = 144#8 then snapshot (((u.withMode .vBlank).raise 0).raiseIf (u.ppu.statEn.getLsbD 1) 1)
  else if u.ppu.ly.toNat < 144 then (u.withMode .oamScan).raiseIf (u.ppu.statEn.getLsbD 2) 1
  else u

theorem lineEnd_eq :
    lineEnd s = lineEvent (compareLyc { s with ppu := { s.ppu with dot := 0, ly := nextLine s.ppu.ly } }) := rfl

theorem ppuWrote_lineEvent : ppuWrote s (lineEvent s) := by
  unfold lineEvent
  split
  · exact ppuWrote_trans s (ppuWrote_withMode s _) (ppuWrote_trans _ (ppuWrote_raise _ _)
      (ppuWrote_trans _ (ppuWrote_raiseIf _ _ _) (ppuWrote_snapshot _)))
  · split
    · exact ppuWrote_trans s (ppuWrote_withMode s _) (ppuWrote_raiseIf _ _ _)
    · exact ppuWrote_refl s

theorem ppuWrote_lineEnd : ppuWrote s (lineEnd s) := by
  have h : ppuWrote s { s with ppu := { s.ppu with dot := 0, ly := nextLine s.ppu.ly } } := rfl
  rw [lineEnd_eq]
  exact ppuWrote_trans s h (ppuWrote_trans _ (ppuWrote_compareLyc _) (ppuWrote_lineEvent _))

theorem ppuWrote_transferStart : ppuWrote s (transferStart s) := rfl

theorem ppuWrote_hBlankStart : ppuWrote s (hBlankStart s) :=
  ppuWrote_trans s (ppuWrote_withMode s _) (ppuWrote_raiseIf _ _ _)

theorem ppuWrote_tick : ppuWrote s (tick s) := by
  unfold tick
  split
  · have h : ppuWrote s { s with ppu := { s.ppu with dot := s.ppu.dot + 1 } } := rfl
    refine ppuWrote_trans s h ?_
    generalize { s with ppu := { s.ppu with dot := s.ppu.dot + 1 } } = u
    simp only
    split
    · exact ppuWrote_lineEnd u
    · split
      · exact ppuWrote_transferStart u
      · split
        · exact ppuWrote_hBlankStart u
        · exact ppuWrote_refl u
  · exact ppuWrote_refl s

theorem ppuWrote_advance (n : Nat) : ppuWrote s (advance n s) := by
  induction n generalizing s with
  | zero => exact ppuWrote_refl s
  | succ n ih => exact ppuWrote_trans s (ppuWrote_tick s) (ih (tick s))

/-- The PPU raises requests 0 and 1 alone (R250, R259). -/
theorem raiseIf_other_requests (b : Bool) {i j : Nat} (hi : i < 2) (hj : 2 ≤ j) :
    (s.raiseIf b i).irq.ifr.getLsbD j = s.irq.ifr.getLsbD j := by
  cases b
  · rfl
  · have h : (1#5 <<< i).getLsbD j = false := by simp; omega
    simp only [State.raiseIf, State.raise, if_true, BitVec.getLsbD_or, h, Bool.or_false]

theorem lineEvent_other_requests {j : Nat} (hj : 2 ≤ j) :
    (lineEvent s).irq.ifr.getLsbD j = s.irq.ifr.getLsbD j := by
  unfold lineEvent
  split
  · refine (raiseIf_other_requests ((s.withMode .vBlank).raise 0) (s.ppu.statEn.getLsbD 1) ?_ hj).trans
      (raiseIf_other_requests (s.withMode .vBlank) true ?_ hj) <;> decide
  · split
    · exact raiseIf_other_requests (s.withMode .oamScan) _ (by decide) hj
    · rfl

/-- R259: a tick keeps the requests that are not the PPU's. -/
theorem tick_other_requests {j : Nat} (hj : 2 ≤ j) : (tick s).irq.ifr.getLsbD j = s.irq.ifr.getLsbD j := by
  unfold tick
  split
  · simp only
    split
    · rw [lineEnd_eq, lineEvent_other_requests _ hj]
      exact raiseIf_other_requests _ _ (by decide) hj
    · split
      · rfl
      · split
        · exact raiseIf_other_requests _ _ (by decide) hj
        · rfl
  · rfl

/-- Any property that every tick keeps is kept by any number of ticks. -/
theorem advance_induction {P : State → Prop} (h : ∀ u, P u → P (tick u)) (n : Nat) (hs : P s) : P (advance n s) := by
  induction n generalizing s with
  | zero => exact hs
  | succ n ih => exact ih (tick s) (h s hs)

theorem advance_add (m n : Nat) : advance (m + n) s = advance n (advance m s) := by
  induction m generalizing s with
  | zero => rw [Nat.zero_add]; rfl
  | succ m ih => rw [Nat.succ_add]; exact ih (tick s)

/-- R247: nothing moves while the display is off. -/
theorem tick_off (h : s.ppu.lcdc.getLsbD 7 = false) : tick s = s := by
  unfold tick
  rw [h, if_neg Bool.false_ne_true]

theorem advance_off (n : Nat) (h : s.ppu.lcdc.getLsbD 7 = false) : advance n s = s := by
  induction n with
  | zero => rfl
  | succ n ih => rw [advance, tick_off s h, ih]

/-- The display's part of a tick (R246, R249, R251, R252): the four events of a line. -/
theorem tick_on (h : s.ppu.lcdc.getLsbD 7 = true) :
    tick s =
      if s.ppu.dot + 1 = 456 then lineEnd { s with ppu := { s.ppu with dot := s.ppu.dot + 1 } }
      else if s.ppu.ly.toNat < 144 ∧ s.ppu.dot + 1 = 80 then
        transferStart { s with ppu := { s.ppu with dot := s.ppu.dot + 1 } }
      else if s.ppu.ly.toNat < 144 ∧ s.ppu.dot + 1 = 252 then
        hBlankStart { s with ppu := { s.ppu with dot := s.ppu.dot + 1 } }
      else { s with ppu := { s.ppu with dot := s.ppu.dot + 1 } } := by
  unfold tick
  rw [if_pos h]

theorem raiseIf_ppu (b : Bool) (i : Nat) : (s.raiseIf b i).ppu = s.ppu := by simp

/-- Where the line end leaves the display. -/
theorem lineEnd_ppu :
    (lineEnd s).ppu.ly = nextLine s.ppu.ly ∧ (lineEnd s).ppu.dot = 0 ∧
    (lineEnd s).ppu.lycEq = decide (nextLine s.ppu.ly = s.ppu.lyc) ∧ (lineEnd s).ppu.sel = s.ppu.sel ∧
    (lineEnd s).ppu.fb = s.ppu.fb ∧
    (lineEnd s).ppu.mode = (if nextLine s.ppu.ly = 144#8 then .vBlank
      else if (nextLine s.ppu.ly).toNat < 144 then .oamScan else s.ppu.mode) := by
  have hc : ∀ u : State, (compareLyc u).ppu = { u.ppu with lycEq := decide (u.ppu.ly = u.ppu.lyc) } := by
    intro u
    unfold compareLyc
    rw [raiseIf_ppu]
  have hu := hc { s with ppu := { s.ppu with dot := 0, ly := nextLine s.ppu.ly } }
  rw [lineEnd_eq]
  generalize compareLyc { s with ppu := { s.ppu with dot := 0, ly := nextLine s.ppu.ly } } = u at hu
  unfold lineEvent
  simp only [hu]
  split
  · have hp : (snapshot (((u.withMode .vBlank).raise 0).raiseIf (u.ppu.statEn.getLsbD 1) 1)).ppu =
        { u.ppu with mode := .vBlank } := (raiseIf_ppu _ _ _).trans rfl
    rw [hu] at hp
    rw [hp]
    exact ⟨rfl, rfl, rfl, rfl, rfl, rfl⟩
  · split
    · have hp : ((u.withMode .oamScan).raiseIf (u.ppu.statEn.getLsbD 2) 1).ppu =
          { u.ppu with mode := .oamScan } := (raiseIf_ppu _ _ _).trans rfl
      rw [hu] at hp
      rw [hp]
      exact ⟨rfl, rfl, rfl, rfl, rfl, rfl⟩
    · rw [hu]
      exact ⟨rfl, rfl, rfl, rfl, rfl, rfl⟩

theorem hBlankStart_ppu : (hBlankStart s).ppu = { s.ppu with mode := .hBlank } := raiseIf_ppu _ _ _

theorem transferStart_ppu :
    (transferStart s).ppu = { s.ppu with
      mode := .transfer, sel := s.oamSelect
      fb := writeCells blankRow s.ppu.fb s.ppu.ly.toNat
        ({ s with ppu := { s.ppu with sel := s.oamSelect, mode := .transfer } } : State).lineRow } := rfl

theorem nextLine_toNat {ly : Byte} (h : ly.toNat ≤ 153) :
    (nextLine ly).toNat = if ly.toNat = 153 then 0 else ly.toNat + 1 := by
  unfold nextLine
  by_cases h1 : ly = 153#8
  · subst h1; rfl
  · have h2 : ly.toNat ≠ 153 := fun h2 => h1 (BitVec.eq_of_toNat_eq (by simpa using h2))
    rw [if_neg h1, if_neg h2, BitVec.toNat_add]
    simp
    omega

/-- R246: a tick keeps the display at a legal position. -/
theorem tick_position (h : s.ppu.positionOk = true) : (tick s).ppu.positionOk = true := by
  have hw := ppuWrote_registers s (ppuWrote_tick s)
  cases hl : s.ppu.lcdc.getLsbD 7 with
  | false => rw [tick_off s hl]; exact h
  | true =>
    simp only [Ppu.positionOk, hl, if_true, Bool.and_eq_true, decide_eq_true_eq] at h
    obtain ⟨⟨hd, hy⟩, hm⟩ := h
    simp only [Ppu.positionOk, hw.1, hl, if_true, Bool.and_eq_true, decide_eq_true_eq]
    rw [tick_on s hl]
    have hn := nextLine_toNat hy
    split
    · obtain ⟨h1, h2, -, -, -, h6⟩ := lineEnd_ppu { s with ppu := { s.ppu with dot := s.ppu.dot + 1 } }
      rw [h1, h2, h6]
      refine ⟨⟨by omega, ?_⟩, ?_⟩
      · simp only [hn]; split <;> omega
      · simp only [modeAt, hn]
        have h144 : (nextLine s.ppu.ly = 144#8) ↔ (nextLine s.ppu.ly).toNat = 144 :=
          ⟨fun h => by rw [h]; rfl, fun h => BitVec.eq_of_toNat_eq (by rw [h]; rfl)⟩
        simp only [h144, hn, hm, modeAt]
        split_ifs <;> first | rfl | omega
    · split
      · rw [transferStart_ppu]
        refine ⟨⟨by simp only; omega, hy⟩, ?_⟩
        simp only [modeAt]
        split_ifs <;> first | rfl | omega
      · split
        · rw [hBlankStart_ppu]
          refine ⟨⟨by simp only; omega, hy⟩, ?_⟩
          simp only [modeAt]
          split_ifs <;> first | rfl | omega
        · refine ⟨⟨by simp only; omega, hy⟩, ?_⟩
          simp only [hm, modeAt]
          split_ifs <;> first | rfl | omega

/-- R249: a tick keeps the LY = LYC bit up to date. -/
theorem tick_lycEq (h : s.ppu.lycEq = decide (s.ppu.ly = s.ppu.lyc)) :
    (tick s).ppu.lycEq = decide ((tick s).ppu.ly = (tick s).ppu.lyc) := by
  have hw := (ppuWrote_registers s (ppuWrote_tick s)).2.2.2.2.1
  cases hl : s.ppu.lcdc.getLsbD 7 with
  | false => rw [tick_off s hl]; exact h
  | true =>
    rw [hw, tick_on s hl]
    split
    · obtain ⟨h1, -, h3, -⟩ := lineEnd_ppu { s with ppu := { s.ppu with dot := s.ppu.dot + 1 } }
      rw [h1, h3]
    · split
      · rw [transferStart_ppu]; exact h
      · split
        · rw [hBlankStart_ppu]; exact h
        · exact h

/-- A row of the frame has 160 shades. -/
theorem lineRow_length : s.lineRow.length = 160 := by simp [State.lineRow]

/-- R252: a tick keeps the frame buffer in canonical form. -/
theorem tick_frame (h : frameWf s.ppu.fb = true) : frameWf (tick s).ppu.fb = true := by
  cases hl : s.ppu.lcdc.getLsbD 7 with
  | false => rw [tick_off s hl]; exact h
  | true =>
    rw [tick_on s hl]
    split
    · rw [(lineEnd_ppu _).2.2.2.2.1]; exact h
    · split
      · next h1 =>
        rw [transferStart_ppu]
        simp only [frameWf, Bool.and_eq_true] at h ⊢
        refine ⟨writeCells_wf _ h.1 _ _, writeCells_all _ h.2 ?_⟩
        simp [h1.1, lineRow_length]
      · split
        · rw [hBlankStart_ppu]; exact h
        · exact h

/-- R251: the selection names at most ten sprites of the table, in its order. -/
theorem oamSelect_ok : s.oamSelect.length ≤ 10 ∧ s.oamSelect.Pairwise (· < ·) ∧ ∀ n ∈ s.oamSelect, n < 40 := by
  unfold State.oamSelect
  refine ⟨by simp, ?_, fun n hn => ?_⟩
  · exact (List.pairwise_lt_range.filter _).sublist (List.take_sublist _ _)
  · exact List.mem_range.mp (List.mem_of_mem_filter (List.mem_of_mem_take hn))

theorem tick_selected (h : s.ppu.sel.length ≤ 10 ∧ s.ppu.sel.Pairwise (· < ·) ∧ ∀ n ∈ s.ppu.sel, n < 40) :
    (tick s).ppu.sel.length ≤ 10 ∧ (tick s).ppu.sel.Pairwise (· < ·) ∧ ∀ n ∈ (tick s).ppu.sel, n < 40 := by
  cases hl : s.ppu.lcdc.getLsbD 7 with
  | false => rw [tick_off s hl]; exact h
  | true =>
    rw [tick_on s hl]
    split
    · rw [(lineEnd_ppu _).2.2.2.1]; exact h
    · split
      · rw [transferStart_ppu]; exact oamSelect_ok _
      · split
        · rw [hBlankStart_ppu]; exact h
        · exact h

end Sys2Proof.Machine
end

