-- ==== Sys2Proof/Laws/Step.lean ====
section
/-! SUPPORT. Fetching an instruction, the start of a step, the ways a step can go, and runs of steps, said once. -/

namespace Sys2Proof.Machine

variable (s : State)

/-! ### Fetch -/

/-- R14: a fetch reads at `pc` and moves it by one. -/
theorem fetchByte_eq (h : s.irq.hbPending = false) :
    fetchByte s = (s.readByte s.pc, { s.noteRead s.pc with pc := s.pc + 1 }) := by
  unfold fetchByte
  simp [memRead, h]

/-- R232: with the halt bug pending a fetch reads at `pc`, ends the pending state and leaves `pc`. -/
theorem fetchByte_haltBug (h : s.irq.hbPending = true) :
    fetchByte s = (s.readByte s.pc,
      { s.noteRead s.pc with irq := { (s.noteRead s.pc).irq with hbPending := false } }) := by
  unfold fetchByte
  simp [memRead, h]

theorem noteRead_pc (a x : Word) :
    State.noteRead { s with pc := x } a = { s.noteRead a with pc := x } := by
  unfold State.noteRead
  cases hr : regionOf a <;> try rfl
  · change (if s.extRamOpen = true then _ else _) = _
    simp only
    split <;> rfl
  · cases hi : ioRegOf a <;> rfl

theorem noteReads_keeps (n : Nat) (a : Word) :
    (noteReads n a s).regs = s.regs ∧ (noteReads n a s).sp = s.sp ∧ (noteReads n a s).pc = s.pc ∧
    (noteReads n a s).start = s.start ∧ (noteReads n a s).irq = s.irq ∧ (noteReads n a s).ppu = s.ppu ∧
    (noteReads n a s).mapper = s.mapper ∧ (noteReads n a s).bootMapped = s.bootMapped ∧
    (noteReads n a s).mem = s.mem ∧ (noteReads n a s).aud = s.aud ∧ sameSetting s (noteReads n a s) ∧
    (noteReads n a s).out.cycles = s.out.cycles ∧ (noteReads n a s).out.frame = s.out.frame := by
  induction n generalizing a s with
  | zero => exact ⟨rfl, rfl, rfl, rfl, rfl, rfl, rfl, rfl, rfl, rfl, ⟨rfl, rfl, rfl, rfl, rfl, rfl⟩, rfl, rfl⟩
  | succ n ih =>
    have h := ih (s.noteRead a) (a + 1)
    have ho := noteRead_outs s a
    simpa [noteReads, sameSetting, ho] using h

/-- R14: `n` fetches in a row give the bytes at `pc`, `pc + 1`, …; here each of the up to three of them. -/
theorem fetchByte_again {a : Word} (h : s.irq.hbPending = false) :
    fetchByte { s with pc := a } = (s.readByte a, { s.noteRead a with pc := a + 1 }) := by
  rw [fetchByte_eq { s with pc := a } h, noteRead_pc]
  rfl

/-- The length of an instruction is 1, 2 or 3 (R81). -/
theorem instrLength_cases (b : Byte) : instrLength b = 1 ∨ instrLength b = 2 ∨ instrLength b = 3 := by
  unfold instrLength
  repeat' split
  all_goals simp

/-- The engine fetches the instruction that the bytes at `pc` decode to, and `pc` is past it. -/
theorem fetchInstr_eq {i : Instr} {rest : List Byte} (h : s.irq.hbPending = false)
    (hd : decode (codeBytes 3 s.pc s) = .ok (i, rest)) :
    fetchInstr s = (i, { noteReads (3 - rest.length) s.pc s with
      pc := s.pc + BitVec.ofNat 16 (3 - rest.length) }) := by
  have h1 : (s.noteRead s.pc).irq.hbPending = false := by simpa using h
  have h2 : ((s.noteRead s.pc).noteRead (s.pc + 1)).irq.hbPending = false := by simpa using h
  have e1 : s.pc + 1 + 1 = s.pc + 2 := by bv_omega
  have e2 : s.pc + 1 + 1 + 1 = s.pc + 3 := by bv_omega
  unfold fetchInstr
  simp only [fetchByte_eq s h, fetchByte_again _ h1, fetchByte_again _ h2]
  simp only [codeBytes, decode] at hd
  rcases instrLength_cases (s.readByte s.pc) with hl | hl | hl <;>
    simp only [hl, Except.ok.injEq, Prod.mk.injEq] at hd ⊢ <;>
    obtain ⟨rfl, rfl⟩ := hd
  · exact ⟨rfl, rfl⟩
  · exact ⟨rfl, by rw [e1]; rfl⟩
  · exact ⟨rfl, by rw [e2]; rfl⟩

theorem noteRead_pc_irq (a p : Word) (q : Irq) :
    State.noteRead { s with pc := p, irq := q } a = { s.noteRead a with pc := p, irq := q } := by
  unfold State.noteRead
  cases hr : regionOf a <;> try rfl
  · change (if s.extRamOpen = true then _ else _) = _
    simp only
    split <;> rfl
  · cases hi : ioRegOf a <;> rfl

theorem readByte_congr_haltBug (a p : Word) :
    State.readByte { s with pc := p, irq := { s.irq with hbPending := false } } a = s.readByte a := by
  unfold State.readByte
  cases regionOf a <;> rfl

/-- A fetch at `a` in a state that differs by PC and by the halt bug that has just ended. -/
theorem fetchByte_after_haltBug (a : Word) :
    fetchByte { s with pc := a, irq := { s.irq with hbPending := false } } = (s.readByte a,
      { s.noteRead a with pc := a + 1, irq := { s.irq with hbPending := false } }) := by
  rw [fetchByte_eq { s with pc := a, irq := { s.irq with hbPending := false } } rfl,
    noteRead_pc_irq]
  exact congrArg (fun v => (v, _)) (readByte_congr_haltBug s a a)

/-- R232: with the halt bug pending the byte at `pc` is fetched twice. -/
theorem fetchInstr_haltBug {i : Instr} {rest : List Byte} (h : s.irq.hbPending = true)
    (hd : decode (s.readByte s.pc :: codeBytes 2 s.pc (s.noteRead s.pc)) = .ok (i, rest)) :
    fetchInstr s = (i, { noteReads (2 - rest.length) s.pc (s.noteRead s.pc) with
      pc := s.pc + BitVec.ofNat 16 (2 - rest.length)
      irq := { (noteReads (2 - rest.length) s.pc (s.noteRead s.pc)).irq with hbPending := false } }) := by
  have e1 : s.pc + 1 + 1 = s.pc + 2 := by bv_omega
  have e0 : s.pc + 0#16 = s.pc := by simp
  have k1 : (s.noteRead s.pc).irq = s.irq := by simp
  have hs : ({ s.noteRead s.pc with irq := { s.irq with hbPending := false } } : State) =
      { s.noteRead s.pc with pc := s.pc, irq := { (s.noteRead s.pc).irq with hbPending := false } } := by
    have hu : ∀ (u : State) (p : Word) (q : Irq), u.pc = p →
        ({ u with irq := q } : State) = { u with pc := p, irq := q } := by rintro u p q rfl; rfl
    rw [k1]
    exact hu _ _ _ (noteRead_keeps s s.pc).2.2.1
  have h1 := fetchByte_after_haltBug (s.noteRead s.pc) s.pc
  have h2 := fetchByte_after_haltBug ((s.noteRead s.pc).noteRead s.pc) (s.pc + 1)
  have k2 : ((s.noteRead s.pc).noteRead s.pc).irq = s.irq := by simp
  have k3 : (((s.noteRead s.pc).noteRead s.pc).noteRead (s.pc + 1)).irq = s.irq := by simp
  rw [k2] at h2
  rw [k1] at h1 hs
  unfold fetchInstr
  simp only [fetchByte_haltBug s h, k1, hs, h1, h2]
  simp only [codeBytes, decode] at hd
  rcases instrLength_cases (s.readByte s.pc) with hl | hl | hl <;>
    simp only [hl, Except.ok.injEq, Prod.mk.injEq] at hd ⊢ <;>
    obtain ⟨rfl, rfl⟩ := hd
  · refine ⟨rfl, ?_⟩
    simp only [List.length_cons, List.length_nil, noteReads, k1, Nat.reduceAdd, Nat.reduceSub, e0]
  · refine ⟨rfl, ?_⟩
    simp only [List.length_cons, List.length_nil, noteReads, k2, Nat.reduceAdd, Nat.reduceSub]
    rfl
  · refine ⟨rfl, ?_⟩
    simp only [List.length_nil, noteReads, k3, Nat.reduceSub, e1]
    rfl

/-! ### The start of a step -/

/-- R241: the requests change IF and the list of those still to come, and nothing else. -/
theorem beginStep_keeps :
    (beginStep s).regs = s.regs ∧ (beginStep s).sp = s.sp ∧ (beginStep s).pc = s.pc ∧
    (beginStep s).start = s.start ∧ (beginStep s).ppu = s.ppu ∧ (beginStep s).mapper = s.mapper ∧
    (beginStep s).bootMapped = s.bootMapped ∧ (beginStep s).mem = s.mem ∧ (beginStep s).aud = s.aud ∧
    (beginStep s).cart = s.cart ∧ (beginStep s).boot = s.boot ∧ (beginStep s).params = s.params ∧
    (beginStep s).extHistory = s.extHistory ∧ (beginStep s).fault = s.fault ∧
    (beginStep s).refused = s.refused ∧ (beginStep s).env = s.env.tail ∧ (beginStep s).out = StepOut.none ∧
    (beginStep s).irq = { s.irq with ifr := (beginStep s).irq.ifr } := by
  refine ⟨?_, ?_, ?_, ?_, ?_, ?_, ?_, ?_, ?_, ?_, ?_, ?_, ?_, ?_, ?_, ?_, rfl, ?_⟩
  rotate_right
  · unfold beginStep clearOut applyRequests
    cases hs : s.env with
    | nil => rfl
    | cons e r =>
      obtain ⟨x, y, z⟩ := e
      cases x <;> cases y <;> cases z <;> rfl
  all_goals simp [beginStep]
  unfold applyRequests
  cases hs : s.env with
  | nil => exact hs
  | cons e r => simp

/-- The ways a step can go (R220, R5). -/
theorem step_cases :
    (∃ f, s.fault = some f ∧ step s = .fault f) ∨
    (∃ r, s.fault = none ∧ s.refused = some r ∧ step s = .refused r) ∨
    (s.fault = none ∧ s.refused = none ∧ s.irq.halted = true ∧ (beginStep s).pending = 0 ∧
      step s = .next (advance 4 ((beginStep s).cost 4))) ∨
    (s.fault = none ∧ s.refused = none ∧ s.irq.ime = true ∧ (beginStep s).pending ≠ 0 ∧
      step s = andThen (service (wake (beginStep s))) fun t => .next (advance t.out.cycles t)) ∨
    (performs s = true ∧
      step s = andThen (perform (wake (beginStep s))) fun t =>
        .next (advance t.out.cycles (eiCountdown t))) := by
  obtain ⟨-, -, -, -, -, -, -, -, -, -, -, -, -, hf, hr, -, -, hi⟩ := beginStep_keeps s
  have hh : (beginStep s).irq.halted = s.irq.halted := by rw [hi]
  have hm : (beginStep s).irq.ime = s.irq.ime := by rw [hi]
  unfold step systemStep cpuStep
  rw [hf, hr, hh, hm]
  cases h1 : s.fault with
  | some f => exact .inl ⟨f, rfl, rfl⟩
  | none =>
    cases h2 : s.refused with
    | some r => exact .inr (.inl ⟨r, rfl, rfl, rfl⟩)
    | none =>
      refine .inr (.inr ?_)
      simp only
      by_cases h3 : (s.irq.halted && decide ((beginStep s).pending = 0)) = true
      · rw [if_pos h3]
        simp only [Bool.and_eq_true, decide_eq_true_eq] at h3
        exact .inl ⟨trivial, trivial, h3.1, h3.2, rfl⟩
      · rw [if_neg h3]
        by_cases h4 : (s.irq.ime && decide ((beginStep s).pending ≠ 0)) = true
        · rw [if_pos h4]
          simp only [Bool.and_eq_true, decide_eq_true_eq] at h4
          exact .inr (.inl ⟨trivial, trivial, h4.1, h4.2, rfl⟩)
        · rw [if_neg h4]
          refine .inr (.inr ⟨?_, ?_⟩)
          · rw [Bool.not_eq_true] at h3 h4
            simp only [performs, h1, h2, h3, h4]
            rfl
          · cases perform (wake (beginStep s)) <;> simp [andThen]

/-! ### Runs (00_scope R7) -/

@[simp] theorem runSteps_zero : runSteps 0 s = some s := rfl

/-- A run goes on from the state a step answers. -/
theorem runSteps_succ {t : State} (n : Nat) (h : step s = .next t) : runSteps (n + 1) s = runSteps n t := by
  simp [runSteps, h]

/-- A run of `m + n` steps is one of `m` and then one of `n`. -/
theorem runSteps_add (m n : Nat) : runSteps (m + n) s = (runSteps m s).bind (runSteps n) := by
  induction m generalizing s with
  | zero => simp
  | succ m ih =>
    rw [Nat.succ_add]
    cases h : step s with
    | next t => rw [runSteps_succ s _ h, runSteps_succ s _ h, ih]
    | fault f => simp [runSteps, h]
    | refused r => simp [runSteps, h]

/-- A run ends at one boundary and in one state. -/
theorem endsRun_unique {stop : Word} {i : Instr} {m n : Nat} {t u : State}
    (hm : endsRun stop i s m t) (hn : endsRun stop i s n u) : m = n ∧ t = u := by
  obtain ⟨ht, et, ft⟩ := hm
  obtain ⟨hu, eu, fu⟩ := hn
  obtain h | rfl | h := Nat.lt_trichotomy m n
  · simp [fu m h t ht] at et
  · exact ⟨rfl, Option.some.inj (ht.symm.trans hu)⟩
  · simp [ft n h u hu] at eu

/-- No boundary of a run before its end faults, is refused, or is an end (R7). -/
theorem endsRun_before {stop : Word} {i : Instr} {k n : Nat} {t : State} (h : endsRun stop i s n t) (hk : k < n) :
    ∃ u v, runSteps k s = some u ∧ step u = .next v ∧ endOfRun stop i u = false := by
  obtain ⟨ht, -, hf⟩ := h
  obtain ⟨d, rfl⟩ : ∃ d, n = k + (d + 1) := ⟨n - k - 1, by omega⟩
  rw [runSteps_add] at ht
  cases hu : runSteps k s with
  | none => simp [hu] at ht
  | some u =>
    rw [hu] at ht
    cases hv : step u with
    | next v => exact ⟨u, v, rfl, hv, hf k hk u hu⟩
    | fault f => simp [runSteps, hv] at ht
    | refused r => simp [runSteps, hv] at ht

end Sys2Proof.Machine
end

