-- ==== Sys2Proof/Tests/Slice0.lean ====
section
/-! SUPPORT. The model's own tests: what WellFormed refuses, words written bit by bit from the spec's encodings,
one-step vectors of spec/95_test_vectors.md, and a state that meets the hypotheses of each statement. -/

namespace Sys2Proof.Tests

open Sys2Proof Sys2Proof.Machine

/-! ### WellFormed -/

/-- R90: the escape byte begins no instruction of its own. -/
theorem test_wellFormed_refuses_escape : (Instr.prefixCB 0x11).wellFormed = false := by decide

theorem test_wellFormed_accepts_illegal : Instr.illegal_D3.wellFormed = true := by decide

/-! ### Decoding (rows of R89 and R90, written bit by bit) -/

/-- `01 rrr rrr`: LD D,L. -/
theorem test_decode_load : decode [0b01010101#8] = .ok (.ld_D_L, []) := rfl

/-- `1110 1010 lo hi`: the low byte comes first (R82). -/
theorem test_decode_little_endian : decode [0b11101010#8, 0x34#8, 0xC2#8, 0xFF#8] = .ok (.ld_ata16_A 0xC234#16, [0xFF#8]) := rfl

/-- `10 011 110`: SBC A,(HL). -/
theorem test_decode_alu8 : decode [0b10011110#8] = .ok (.sbc_A_atHL, []) := rfl

/-- `11 101 110 n`: XOR A,n8. -/
theorem test_decode_alu8_immediate : decode [0b11101110#8, 0x0F#8] = .ok (.xor_A_n8 0x0F#8, []) := rfl

/-- `00 10 1011`: DEC HL. -/
theorem test_decode_alu16 : decode [0b00101011#8] = .ok (.dec_HL, []) := rfl

/-- `11001011 01 101 110`: BIT 5,(HL). -/
theorem test_decode_bitops : decode [0b11001011#8, 0b01101110#8] = .ok (.bit_5_atHL, []) := rfl

/-- `11001011 00 110 011`: SWAP E. -/
theorem test_decode_swap : decode [0b11001011#8, 0b00110011#8] = .ok (.swap_E, []) := rfl

/-- `110 11 100 lo hi`: CALL C,a16. -/
theorem test_decode_control : decode [0b11011100#8, 0x00#8, 0x02#8] = .ok (.call_C_a16 0x0200#16, []) := rfl

/-- `0001 0000 x`: STOP takes a second byte (R92). -/
theorem test_decode_system : decode [0b00010000#8, 0x5A#8] = .ok (.stop 0x5A#8, []) := rfl

/-- R91: 0xFD is illegal as a first byte, and only there. -/
theorem test_decode_illegal : decode [0b11111101#8] = .ok (.illegal_FD, []) ∧
    decode [0xCB#8, 0b11111101#8] = .ok (.set_7_L, []) := ⟨rfl, rfl⟩

/-- A byte string that ends inside an instruction is rejected. -/
theorem test_decode_truncated : decode [0xC3#8, 0x50#8] = .error (.truncated 3 2) := rfl

/-- An opcode-table word: bits 7..0 are the first byte. -/
theorem test_decodeTableWord : decodeTableWord 16 0xFBCB = some .set_7_E := by decide

/-! ### One step -/

/-- The state that the vectors start from: registers and IF 0, SP 0xFFFE, PC 0x0100. -/
def zeroed : State :=
  { State.reset with
    regs := { a := 0, f := 0, b := 0, c := 0, d := 0, e := 0, h := 0, l := 0 }
    irq := { State.reset.irq with ifr := 0 } }

/-- What `f` finds after one step of `s` with the bytes `bs` at `pc`. -/
def after {α : Type} (bs : List Byte) (f : State → α) (s : State) : Option α :=
  match step (placeInstr bs s) with
  | .next t => some (f t)
  | .fault _ => none
  | .refused _ => none

/-- Whether an outcome is a next state. -/
def completes (o : Outcome) : Bool :=
  match o with
  | .next _ => true
  | .fault _ => false
  | .refused _ => false

theorem exists_next {o : Outcome} (h : completes o = true) : ∃ t, o = .next t := by
  cases o with
  | next t => exact ⟨t, rfl⟩
  | fault f => cases h
  | refused r => cases h

def atPc (a : Word) (s : State) : State := { s with pc := a }

def withIe (v : Byte) (s : State) : State := { s with irq := { s.irq with ie := v } }

def withHaltBug (s : State) : State := { s with params := { s.params with haltBug := true } }

/-! ### Loads and stores (95_test_vectors 2.1) -/

/-- V-LD-1. -/
theorem test_ld_A_B :
    after [0x78] (fun t => (t.regs.a, t.pc, t.out.cycles)) (zeroed.setReg .b 0x5A) =
      some (0x5A, 0x0101, 4) := by decide

/-- V-LD-3. -/
theorem test_ld_L_n8 :
    after [0x2E, 0xFF] (fun t => (t.regs.l, t.pc, t.out.cycles)) (zeroed) =
      some (0xFF, 0x0102, 8) := by decide

/-- V-LD-4. -/
theorem test_ld_A_atHL :
    after [0x7E] (fun t => (t.regs.a, t.out.cycles)) ((zeroed.setReg16 .hl 0xC000).putRam 0xC000 0x99) =
      some (0x99, 8) := by decide

/-- V-LD-5. -/
theorem test_ld_A_atHL_reserved :
    after [0x7E] (fun t => (t.regs.a, t.out.reports)) (zeroed.setReg16 .hl 0xFEA0) =
      some (0xFF, [.unmappedRead 0xFEA0]) := by decide

/-- V-LD-6. -/
theorem test_ld_atHL_H :
    after [0x74] (fun t => (t.readByte 0xC012, t.out.cycles)) (zeroed.setReg16 .hl 0xC012) =
      some (0xC0, 8) := by decide

/-- V-LD-7. -/
theorem test_ld_atHL_n8 :
    after [0x36, 0x5A] (fun t => (t.readByte 0xC010, t.pc, t.out.cycles)) (zeroed.setReg16 .hl 0xC010) =
      some (0x5A, 0x0102, 12) := by decide

/-- V-LD-8. -/
theorem test_ld_A_atDE :
    after [0x1A] (fun t => (t.regs.a, t.out.cycles)) ((zeroed.setReg16 .de 0xFF80).putRam 0xFF80 0x3C) =
      some (0x3C, 8) := by decide

/-- V-LD-9. -/
theorem test_ld_atBC_A_echo :
    after [0x02] (fun t => (t.readByte 0xC100, t.out.cycles)) ((zeroed.setReg16 .bc 0xE100).setReg .a 0x01) =
      some (0x01, 8) := by decide

/-- V-LD-10. -/
theorem test_ld_A_atHLI_wraps :
    after [0x2A] (fun t => (t.regs.a, t.hl, t.out.cycles)) (zeroed.setReg16 .hl 0xFFFF) =
      some (0x00, 0x0000, 8) := by decide

/-- V-LD-11. -/
theorem test_ld_A_atHLD :
    after [0x3A] (fun t => (t.regs.a, t.hl)) ((zeroed.setReg16 .hl 0xC000).putRam 0xC000 0x07) =
      some (0x07, 0xBFFF) := by decide

/-- V-LD-12. -/
theorem test_ld_atHLI_A :
    after [0x22] (fun t => (t.readByte 0xC000, t.hl)) ((zeroed.setReg16 .hl 0xC000).setReg .a 0x42) =
      some (0x42, 0xC001) := by decide

/-- V-LD-13, with the image of log entry 4. -/
theorem test_ld_atHLD_A_rom :
    after [0x32] (fun t => (t.hl, t.readByte 0x0000)) ((zeroed.setReg16 .hl 0x0000).setReg .a 0x55) =
      some (0xFFFF, 0xFF) := by decide

/-- V-LD-14. -/
theorem test_ld_A_ata16 :
    after [0xFA, 0x00, 0xC0] (fun t => (t.regs.a, t.pc, t.out.cycles)) (zeroed.putRam 0xC000 0xAB) =
      some (0xAB, 0x0103, 16) := by decide +kernel

/-- V-LD-15. -/
theorem test_ld_ata16_A :
    after [0xEA, 0x34, 0xC2] (fun t => (t.readByte 0xC234, t.pc, t.out.cycles)) (zeroed.setReg .a 0x11) =
      some (0x11, 0x0103, 16) := by decide +kernel

/-- V-LD-16. -/
theorem test_ldh_A_ata8_if :
    after [0xF0, 0x0F] (fun t => (t.regs.a, t.out.cycles)) ((zeroed.raise 0).raise 2) =
      some (0xE5, 12) := by decide

/-- V-LD-17. -/
theorem test_ldh_ata8_A_ie :
    after [0xE0, 0xFF] (fun t => (t.irq.ie, t.pc, t.out.cycles)) (zeroed.setReg .a 0x01) =
      some (0x01, 0x0102, 12) := by decide

/-- V-LD-18. -/
theorem test_ld_A_atC :
    after [0xF2] (fun t => (t.regs.a, t.out.cycles)) ((zeroed.setReg .c 0x80).putRam 0xFF80 0x21) =
      some (0x21, 8) := by decide

/-- V-LD-19. -/
theorem test_ld_atC_A :
    after [0xE2] (fun t => (t.readByte 0xFFFE, t.out.cycles)) ((zeroed.setReg .c 0xFE).setReg .a 0x11) =
      some (0x11, 8) := by decide

/-- V-LD-20. -/
theorem test_ld_HL_n16 :
    after [0x21, 0x34, 0x12] (fun t => (t.regs.h, t.regs.l, t.pc, t.out.cycles)) (zeroed) =
      some (0x12, 0x34, 0x0103, 12) := by decide

/-- V-LD-23. -/
theorem test_ld_ata16_SP_echo :
    after [0x08, 0xFF, 0xDF] (fun t => (t.readByte 0xDFFF, t.readByte 0xE000, t.readByte 0xC000, t.out.cycles)) (zeroed.setReg16 .sp 0xABCD) =
      some (0xCD, 0xAB, 0xAB, 20) := by decide +kernel

/-- V-LD-24. -/
theorem test_ld_SP_HL :
    after [0xF9] (fun t => (t.sp, t.out.cycles)) (zeroed.setReg16 .hl 0xDFFF) =
      some (0xDFFF, 8) := by decide

/-- V-LD-26. -/
theorem test_push_AF :
    after [0xF5] (fun t => (t.sp, t.readByte 0xFFFD, t.readByte 0xFFFC, t.out.cycles)) (((zeroed.setReg .a 0x12)).setFlags ⟨true, false, true, false⟩) =
      some (0xFFFC, 0x12, 0xA0, 16) := by decide +kernel

/-- V-LD-27. -/
theorem test_pop_DE :
    after [0xD1] (fun t => (t.de, t.sp, t.out.cycles)) (((zeroed.setReg16 .sp 0xFFFC).putRam 0xFFFC 0x5F).putRam 0xFFFD 0x3C) =
      some (0x3C5F, 0xFFFE, 12) := by decide

/-- V-LD-28. -/
theorem test_pop_AF_low_nibble :
    after [0xF1] (fun t => (t.regs.a, t.regs.f, t.sp)) (((zeroed.setReg16 .sp 0xFFFC).putRam 0xFFFC 0xFF).putRam 0xFFFD 0x12) =
      some (0x12, 0xF0, 0xFFFE) := by decide

/-! ### 8-bit arithmetic and logic (95_test_vectors 2.2) -/

/-- V-A8-1. -/
theorem test_add_A_B_half :
    after [0x80] (fun t => (t.regs.a, t.regs.f, t.out.cycles)) ((zeroed.setReg .a 0x0F).setReg .b 0x01) =
      some (0x10, 0x20, 4) := by decide

/-- V-A8-3. -/
theorem test_add_A_A :
    after [0x87] (fun t => (t.regs.a, t.regs.f)) (zeroed.setReg .a 0x80) =
      some (0x00, 0x90) := by decide

/-- V-A8-6. -/
theorem test_adc_A_n8 :
    after [0xCE, 0xFF] (fun t => (t.regs.a, t.regs.f, t.out.cycles)) (zeroed.setFlags ⟨false, false, false, true⟩) =
      some (0x00, 0xB0, 8) := by decide

/-- V-A8-10. -/
theorem test_sub_A_n8 :
    after [0xD6, 0x01] (fun t => (t.regs.a, t.regs.f)) (zeroed) =
      some (0xFF, 0x70) := by decide

/-- V-A8-12. -/
theorem test_sbc_A_n8 :
    after [0xDE, 0x00] (fun t => (t.regs.a, t.regs.f)) (zeroed.setFlags ⟨false, false, false, true⟩) =
      some (0xFF, 0x70) := by decide

/-- V-A8-13. -/
theorem test_sbc_A_A :
    after [0x9F] (fun t => (t.regs.a, t.regs.f)) ((zeroed.setReg .a 0x10).setFlags ⟨false, false, false, true⟩) =
      some (0xFF, 0x70) := by decide

/-- V-A8-14. -/
theorem test_and_A_n8 :
    after [0xE6, 0x3F] (fun t => (t.regs.a, t.regs.f)) (zeroed.setReg .a 0x5A) =
      some (0x1A, 0x20) := by decide

/-- V-A8-16. -/
theorem test_xor_A_A :
    after [0xAF] (fun t => (t.regs.a, t.regs.f)) ((zeroed.setReg .a 0x77).setFlags ⟨false, true, true, true⟩) =
      some (0x00, 0x80) := by decide

/-- V-A8-17. -/
theorem test_or_A_atHL :
    after [0xB6] (fun t => (t.regs.a, t.regs.f, t.out.cycles)) (((zeroed.setReg .a 0x5A).setReg16 .hl 0xC000).putRam 0xC000 0x03) =
      some (0x5B, 0x00, 8) := by decide

/-- V-A8-21. -/
theorem test_cp_A_n8 :
    after [0xFE, 0x40] (fun t => (t.regs.a, t.regs.f)) (zeroed.setReg .a 0x3C) =
      some (0x3C, 0x50) := by decide

/-- V-A8-22. -/
theorem test_inc_A :
    after [0x3C] (fun t => (t.regs.a, t.regs.f)) ((zeroed.setReg .a 0x0F).setFlags ⟨false, false, false, true⟩) =
      some (0x10, 0x30) := by decide

/-- V-A8-24. -/
theorem test_inc_atHL :
    after [0x34] (fun t => (t.readByte 0xC000, t.regs.f, t.out.cycles)) ((zeroed.setReg16 .hl 0xC000).putRam 0xC000 0x7F) =
      some (0x80, 0x20, 12) := by decide

/-- V-A8-26. -/
theorem test_dec_C :
    after [0x0D] (fun t => (t.regs.c, t.regs.f)) (zeroed.setFlags ⟨false, false, false, true⟩) =
      some (0xFF, 0x70) := by decide

/-- V-A8-27. -/
theorem test_dec_atHL :
    after [0x35] (fun t => (t.readByte 0xC000, t.regs.f, t.out.cycles)) ((zeroed.setReg16 .hl 0xC000).putRam 0xC000 0x10) =
      some (0x0F, 0x60, 12) := by decide

/-- V-A8-29. -/
theorem test_daa_both :
    after [0x27] (fun t => (t.regs.a, t.regs.f)) (zeroed.setReg .a 0x9A) =
      some (0x00, 0x90) := by decide

/-- V-A8-31. -/
theorem test_daa_subtract :
    after [0x27] (fun t => (t.regs.a, t.regs.f)) ((zeroed.setReg .a 0x0F).setFlags ⟨false, true, true, false⟩) =
      some (0x09, 0x40) := by decide

/-- V-A8-33. -/
theorem test_cpl :
    after [0x2F] (fun t => (t.regs.a, t.regs.f)) (zeroed.setReg .a 0x35) =
      some (0xCA, 0x60) := by decide

/-- V-A8-34. -/
theorem test_scf :
    after [0x37] (fun t => t.regs.f) (zeroed.setFlags ⟨true, true, true, false⟩) =
      some 0x90 := by decide

/-- V-A8-35. -/
theorem test_ccf :
    after [0x3F] (fun t => t.regs.f) (zeroed.setFlags ⟨false, true, true, true⟩) =
      some 0x00 := by decide

/-! ### 16-bit arithmetic (95_test_vectors 2.3) -/

/-- V-A16-1. -/
theorem test_inc_BC :
    after [0x03] (fun t => (t.bc, t.regs.f, t.out.cycles)) ((zeroed.setReg16 .bc 0x00FF).setFlags ⟨true, true, true, true⟩) =
      some (0x0100, 0xF0, 8) := by decide

/-- V-A16-3. -/
theorem test_dec_DE :
    after [0x1B] (fun t => (t.de, t.regs.f)) (zeroed) =
      some (0xFFFF, 0x00) := by decide

/-- V-A16-5. -/
theorem test_add_HL_HL :
    after [0x29] (fun t => (t.hl, t.regs.f, t.out.cycles)) ((zeroed.setReg16 .hl 0x8A23).setFlags ⟨true, false, false, false⟩) =
      some (0x1446, 0xB0, 8) := by decide

/-- V-A16-6. -/
theorem test_add_HL_SP :
    after [0x39] (fun t => (t.hl, t.regs.f)) ((zeroed.setReg16 .hl 0x0FFF).setReg16 .sp 0x0001) =
      some (0x1000, 0x20) := by decide

/-- V-A16-8. -/
theorem test_add_SP_e8 :
    after [0xE8, 0xFF] (fun t => (t.sp, t.regs.f, t.out.cycles)) ((zeroed.setReg16 .sp 0x0001).setFlags ⟨true, false, false, false⟩) =
      some (0x0000, 0x30, 16) := by decide +kernel

/-- V-A16-10. -/
theorem test_ld_HL_SPe8 :
    after [0xF8, 0x80] (fun t => (t.hl, t.sp, t.regs.f, t.out.cycles)) (zeroed.setReg16 .sp 0x0080) =
      some (0x0000, 0x0080, 0x10, 12) := by decide

/-! ### Rotates, shifts and bits (95_test_vectors 2.4) -/

/-- V-B-2. -/
theorem test_rlca_clears_Z :
    after [0x07] (fun t => (t.regs.a, t.regs.f, t.out.cycles)) (zeroed.setFlags ⟨true, false, false, false⟩) =
      some (0x00, 0x00, 4) := by decide

/-- V-B-3. -/
theorem test_rrca :
    after [0x0F] (fun t => (t.regs.a, t.regs.f)) (zeroed.setReg .a 0x3B) =
      some (0x9D, 0x10) := by decide

/-- V-B-4. -/
theorem test_rla :
    after [0x17] (fun t => (t.regs.a, t.regs.f)) ((zeroed.setReg .a 0x95).setFlags ⟨false, false, false, true⟩) =
      some (0x2B, 0x10) := by decide

/-- V-B-5. -/
theorem test_rra :
    after [0x1F] (fun t => (t.regs.a, t.regs.f)) (zeroed.setReg .a 0x01) =
      some (0x00, 0x10) := by decide

/-- V-B-6. -/
theorem test_rlc_B :
    after [0xCB, 0x00] (fun t => (t.regs.b, t.regs.f, t.pc, t.out.cycles)) (zeroed.setReg .b 0x85) =
      some (0x0B, 0x10, 0x0102, 8) := by decide

/-- V-B-8. -/
theorem test_rrc_atHL :
    after [0xCB, 0x0E] (fun t => (t.readByte 0xC000, t.regs.f, t.out.cycles)) ((zeroed.setReg16 .hl 0xC000).putRam 0xC000 0x01) =
      some (0x80, 0x10, 16) := by decide +kernel

/-- V-B-9. -/
theorem test_rl_C :
    after [0xCB, 0x11] (fun t => (t.regs.c, t.regs.f)) (zeroed.setReg .c 0x80) =
      some (0x00, 0x90) := by decide

/-- V-B-10. -/
theorem test_rr_A :
    after [0xCB, 0x1F] (fun t => (t.regs.a, t.regs.f)) (zeroed.setReg .a 0x01) =
      some (0x00, 0x90) := by decide

/-- V-B-11. -/
theorem test_sla_D :
    after [0xCB, 0x22] (fun t => (t.regs.d, t.regs.f)) (zeroed.setReg .d 0xFF) =
      some (0xFE, 0x10) := by decide

/-- V-B-12. -/
theorem test_sra_A :
    after [0xCB, 0x2F] (fun t => (t.regs.a, t.regs.f)) (zeroed.setReg .a 0x8A) =
      some (0xC5, 0x00) := by decide

/-- V-B-14. -/
theorem test_swap_A :
    after [0xCB, 0x37] (fun t => (t.regs.a, t.regs.f)) ((zeroed.setReg .a 0xF0).setFlags ⟨false, false, false, true⟩) =
      some (0x0F, 0x00) := by decide

/-- V-B-16. -/
theorem test_srl_A :
    after [0xCB, 0x3F] (fun t => (t.regs.a, t.regs.f)) (zeroed.setReg .a 0x01) =
      some (0x00, 0x90) := by decide

/-- V-B-17. -/
theorem test_bit_7_A :
    after [0xCB, 0x7F] (fun t => (t.regs.a, t.regs.f, t.out.cycles)) ((zeroed.setReg .a 0x80).setFlags ⟨false, true, false, true⟩) =
      some (0x80, 0x30, 8) := by decide

/-- V-B-18. -/
theorem test_bit_0_atHL :
    after [0xCB, 0x46] (fun t => (t.regs.f, t.out.cycles)) ((zeroed.setReg16 .hl 0xC000).putRam 0xC000 0xFE) =
      some (0xA0, 12) := by decide

/-- V-B-19. -/
theorem test_res_0_A :
    after [0xCB, 0x87] (fun t => (t.regs.a, t.regs.f)) (zeroed.setReg .a 0xFF) =
      some (0xFE, 0x00) := by decide

/-- V-B-20. -/
theorem test_set_7_atHL :
    after [0xCB, 0xFE] (fun t => (t.readByte 0xC000, t.out.cycles)) (zeroed.setReg16 .hl 0xC000) =
      some (0x80, 16) := by decide +kernel

/-! ### Control transfer (95_test_vectors 2.5) -/

/-- V-C-1. -/
theorem test_jp_a16 :
    after [0xC3, 0x50, 0x01] (fun t => (t.pc, t.out.cycles)) (zeroed) =
      some (0x0150, 16) := by decide +kernel

/-- V-C-2. -/
theorem test_jp_NZ_a16_not_taken :
    after [0xC2, 0x00, 0x20] (fun t => (t.pc, t.out.cycles)) (zeroed.setFlags ⟨true, false, false, false⟩) =
      some (0x0103, 12) := by decide

/-- V-C-3. -/
theorem test_jp_Z_a16_taken :
    after [0xCA, 0x00, 0x20] (fun t => (t.pc, t.out.cycles)) (zeroed.setFlags ⟨true, false, false, false⟩) =
      some (0x2000, 16) := by decide +kernel

/-- V-C-4. -/
theorem test_jp_HL :
    after [0xE9] (fun t => (t.pc, t.out.cycles)) (zeroed.setReg16 .hl 0xC000) =
      some (0xC000, 4) := by decide

/-- V-C-6. -/
theorem test_jr_e8_wraps :
    after [0x18, 0x7F] (fun t => (t.pc, t.out.cycles)) (atPc 0xFFF0 zeroed) =
      some (0x0071, 12) := by decide

/-- V-C-7. -/
theorem test_jr_NZ_e8 :
    after [0x20, 0xFB] (fun t => (t.pc, t.out.cycles)) (atPc 0x0105 zeroed) =
      some (0x0102, 12) := by decide

/-- V-C-9. -/
theorem test_call_a16 :
    after [0xCD, 0x00, 0x02] (fun t => (t.pc, t.sp, t.readByte 0xFFFD, t.readByte 0xFFFC, t.out.cycles)) (atPc 0x0150 zeroed) =
      some (0x0200, 0xFFFC, 0x01, 0x53, 24) := by decide +kernel

/-- V-C-10. -/
theorem test_call_C_a16_not_taken :
    after [0xDC, 0x00, 0x02] (fun t => (t.pc, t.sp, t.out.cycles)) (zeroed) =
      some (0x0103, 0xFFFE, 12) := by decide

/-- V-C-12. -/
theorem test_ret :
    after [0xC9] (fun t => (t.pc, t.sp, t.out.cycles)) (((zeroed.setReg16 .sp 0xFFFC).putRam 0xFFFC 0x53).putRam 0xFFFD 0x01) =
      some (0x0153, 0xFFFE, 16) := by decide +kernel

/-- V-C-14. -/
theorem test_ret_NC_taken :
    after [0xD0] (fun t => (t.pc, t.sp, t.out.cycles)) (((zeroed.setReg16 .sp 0xFFFC).putRam 0xFFFC 0x53).putRam 0xFFFD 0x01) =
      some (0x0153, 0xFFFE, 20) := by decide +kernel

/-- V-C-15. -/
theorem test_reti :
    after [0xD9] (fun t => (t.pc, t.sp, t.irq.ime, t.out.cycles)) (((zeroed.setReg16 .sp 0xFFFC).putRam 0xFFFC 0x53).putRam 0xFFFD 0x01) =
      some (0x0153, 0xFFFE, true, 16) := by decide +kernel

/-- V-C-17. -/
theorem test_rst_38_into_ie :
    after [0xFF] (fun t => (t.pc, t.sp, t.irq.ie, t.out.cycles)) (atPc 0x0200 (zeroed.setReg16 .sp 0x0001)) =
      some (0x0038, 0xFFFF, 0x01, 16) := by decide +kernel

/-! ### System instructions and the step (95_test_vectors 2.6) -/

/-- V-S-1. -/
theorem test_nop :
    after [0x00] (fun t => (t.pc, t.out.cycles)) (zeroed) =
      some (0x0101, 4) := by decide

/-- V-S-2. -/
theorem test_halt :
    after [0x76] (fun t => (t.pc, t.irq.halted, t.out.cycles)) (withIe 0x01 zeroed) =
      some (0x0101, true, 4) := by decide

/-- the first step of V-S-5. -/
theorem test_halt_bug_armed :
    after [0x76] (fun t => (t.irq.halted, t.irq.hbPending)) (withHaltBug ((withIe 0x04 zeroed).raise 2)) =
      some (false, true) := by decide

/-- V-S-7. -/
theorem test_di :
    after [0xF3] (fun t => (t.irq.ime, t.out.cycles)) (zeroed.setMasterEnable true) =
      some (false, 4) := by decide

/-- V-S-8. -/
theorem test_ei :
    after [0xFB] (fun t => (t.irq.ime, t.irq.eiDelay, t.out.cycles)) (zeroed) =
      some (false, 1, 4) := by decide

/-- V-S-6. -/
theorem test_stop : step (placeInstr [0x10, 0x00] (atPc 0x0150 zeroed)) = .refused .stopUnmodelled := rfl

/-- V-S-11. -/
theorem test_illegal_D3 :
    step (placeInstr [0xD3] (atPc 0x0150 zeroed)) = .fault (.decodeError 0x0150 0xD3) := rfl

/-- NOP, then `18 FE`, the self-loop of R7. -/
def beforeSelfLoop : State := placeInstr [0x00, 0x18, 0xFE] zeroed

theorem test_run_not_ended : endOfRun 0x0101 (.jr_e8 0xFE) beforeSelfLoop = false := by decide

theorem test_run_reaches_end :
    (runSteps 1 beforeSelfLoop).map (endOfRun 0x0101 (.jr_e8 0xFE)) = some true := by decide +kernel

/-- R7: the run ends after one step, and at no later pass of the loop. -/
theorem test_run_ends_first :
    (∃ t, endsRun 0x0101 (.jr_e8 0xFE) beforeSelfLoop 1 t) ∧
    ∀ n t, endsRun 0x0101 (.jr_e8 0xFE) beforeSelfLoop n t → n = 1 := by
  obtain ⟨t, ht, he⟩ := Option.map_eq_some_iff.mp test_run_reaches_end
  have h : endsRun 0x0101 (.jr_e8 0xFE) beforeSelfLoop 1 t := by
    refine ⟨ht, he, fun k hk u hu => ?_⟩
    obtain rfl : k = 0 := by omega
    rw [← Option.some.inj hu]
    exact test_run_not_ended
  exact ⟨⟨t, h⟩, fun n u hu => (endsRun_unique _ hu h).1⟩

/-! ### States that meet the hypotheses of the statements

One theorem for each statement with hypotheses (`witness_<its name>`), with a boundary value for each clause. -/

/-- A state whose HL and SP lead every store of theirs to 0xFF46. -/
def atDma : State := (State.reset.setReg16 .hl 0xFF46).setReg16 .sp 0xFF47

def withDma (m : DmaMode) (s : State) : State := { s with params := { s.params with dma := m } }

def withCart (k : CartType) (ram : Fin 6) (s : State) : State :=
  { s with cart := { s.cart with kind := k, ramCode := ram } }

def withMapper (m : MapperState) (s : State) : State := { s with mapper := m }

def withPosition (ly : Byte) (dot : Nat) (s : State) : State :=
  { s with ppu := { s.ppu with ly := ly, dot := dot, mode := modeAt ly dot } }

/-- A halted state in which the halt bug is not pending. -/
def halted : State := { State.reset with irq := { State.reset.irq with halted := true } }

/-- The halt bug pending, and `bs` at PC. -/
def haltBugPending (bs : List Byte) : State :=
  let s := withHaltBug (placeInstr bs State.reset)
  { s with irq := { s.irq with hbPending := true } }

theorem witness_DecodeEncode :
    (Instr.set_7_atHL).wellFormed = true ∧ (Instr.ld_ata16_SP 0xFFFF).wellFormed = true ∧
    (Instr.stop 0xFF).wellFormed = true := by decide

theorem witness_EncodeDecode :
    decode [0xCB#8, 0xFF#8, 0x00#8] = .ok (.set_7_A, [0x00#8]) ∧ decode [] = .error .empty ∧
    decode [0xCD#8, 0x00#8] = .error (.truncated 3 2) := ⟨rfl, rfl, rfl⟩

theorem witness_PrefixedRow :
    storesAllowed (decodePrefixed 0xFE) State.reset = true ∧ storesAllowed (decodePrefixed 0x46) atDma = true := by
  decide

theorem witness_LoadStoreAndStep :
    ((State.reset.setReg16 .hl 0xFFFF).hl + 1 = 0 ∧ mayWrite (State.reset.setReg16 .hl 0xFFFF) 0xFFFF = true) ∧
    ((State.reset.setReg16 .hl 0).hl - 1 = 0xFFFF ∧ mayWrite (State.reset.setReg16 .hl 0) 0 = true) ∧
    mayWrite atDma atDma.hl = false := by decide

theorem witness_StoreToMemory : mayWrite State.reset 0xFF47 = true ∧ mayWrite atDma atDma.hl = false ∧
    mayWrite (withDma .instant atDma) 0xFF46 = true := by decide

theorem witness_StoreStackPointer :
    mayWrite State.reset 0xFFFF = true ∧ mayWrite State.reset (0xFFFF + 1) = true := by decide

theorem witness_PushRegister : mayPush (State.reset.setReg16 .sp 0) = true ∧ mayPush atDma = false ∧
    mayPush (withDma .instant atDma) = true := by decide

theorem witness_PopRegister : (Instr.pop_HL = .pop_BC ∧ Reg16.hl = .bc) ∨ (Instr.pop_HL = .pop_DE ∧ Reg16.hl = .de) ∨
    (Instr.pop_HL = .pop_HL ∧ Reg16.hl = .hl) := .inr (.inr ⟨rfl, rfl⟩)

theorem witness_IncDecByte : mayWriteOperand .atHL State.reset = true ∧ mayWriteOperand (.reg .a) atDma = true := by
  decide

theorem exists_two {i j : Instr} {s : State} (h : completes (andThen (exec i s) (exec j)) = true) :
    ∃ t u, exec i s = .next t ∧ exec j t = .next u := by
  cases hi : exec i s with
  | next t =>
    rw [hi] at h
    obtain ⟨u, hu⟩ := exists_next h
    exact ⟨t, u, rfl, hu⟩
  | fault f => rw [hi] at h; cases h
  | refused r => rw [hi] at h; cases h

/-- 99 + 99 and 99 - 99, without and with a carry: the largest operands. -/
theorem witness_DecimalArithmetic :
    let s := (State.reset.setReg .a (bcd 99)).setFlags ⟨false, false, false, true⟩
    (∃ t u, exec (.add_A_n8 (bcd 99)) s = .next t ∧ exec .daa t = .next u) ∧
    (∃ t u, exec (.adc_A_n8 (bcd 99)) s = .next t ∧ exec .daa t = .next u) ∧
    (∃ t u, exec (.sub_A_n8 (bcd 99)) s = .next t ∧ exec .daa t = .next u) ∧
    (∃ t u, exec (.sbc_A_n8 (bcd 99)) s = .next t ∧ exec .daa t = .next u) ∧ 99 < 100 ∧ s.regs.a = bcd 99 :=
  ⟨exists_two (by decide), exists_two (by decide), exists_two (by decide), exists_two (by decide), by decide,
    by decide⟩

theorem witness_RotateAccumulator : (Instr.rra = .rlca ∧ Rot.rr = .rlc) ∨ (Instr.rra = .rrca ∧ Rot.rr = .rrc) ∨
    (Instr.rra = .rla ∧ Rot.rr = .rl) ∨ (Instr.rra = .rra ∧ Rot.rr = .rr) := .inr (.inr (.inr ⟨rfl, rfl⟩))

theorem witness_RotateOperand : mayWriteOperand .atHL (State.reset.setReg16 .hl 0xFFFF) = true := by decide

theorem witness_SingleBits : mayWriteOperand .atHL (State.reset.setReg16 .hl 0xC000) = true := by decide

/-- F is 0xB0 after reset: Z and C hold, NZ and NC do not. -/
theorem witness_Calls : (condTrue .z State.reset && condTrue .c State.reset) = true ∧
    (condTrue .nz State.reset || condTrue .nc State.reset) = false ∧ mayPush State.reset = true ∧
    mayPush atDma = false := by decide

theorem witness_Returns : condTrue .nc zeroed = true ∧ condTrue .c zeroed = false := by decide

/-- STOP without and with the halt bug pending; LDH (0x46),A; a push during servicing that reaches 0xFF46. -/
theorem witness_StopRefused :
    (let s := placeInstr [0x10, 0xFF] State.reset;
      performs s = true ∧ s.irq.hbPending = false ∧ (wake (beginStep s)).readByte s.pc = 0x10) ∧
    (let s := haltBugPending [0x10];
      performs s = true ∧ s.irq.hbPending = true ∧ (wake (beginStep s)).readByte s.pc = 0x10) ∧
    (let s := placeInstr [0xE0, 0x46] State.reset;
      let f := fetchInstr { wake (beginStep s) with start := s.pc };
      performs s = true ∧ storesAllowed f.1 f.2 = false) ∧
    (let s := withIe 0x01 (atDma.setMasterEnable true);
      s.fault = none ∧ s.refused = none ∧ s.irq.ime = true ∧ (beginStep s).pending ≠ 0 ∧ mayPush s = false) := by
  decide +kernel

theorem witness_IllegalOpcodes :
    ∀ i ∈ [Instr.illegal_D3, .illegal_DB, .illegal_DD, .illegal_E3, .illegal_E4, .illegal_EB, .illegal_EC, .illegal_ED,
      .illegal_F4, .illegal_FC, .illegal_FD],
      let s := placeInstr (encode i) State.reset
      performs s = true ∧ illegalByte i = some ((wake (beginStep s)).readByte s.pc) := by decide

theorem witness_EveryInstructionCompletes :
    (illegalByte (.ld_ata16_A 0xFF46) = none ∧ isStop (.ld_ata16_A 0xFF46) = false ∧
      storesAllowed (.ld_ata16_A 0xFF46) (withDma .instant State.reset) = true) ∧
    exec .illegal_FD State.reset = .fault (.decodeError 0 0xFD) ∧
    exec (.stop 0) State.reset = .refused .stopUnmodelled ∧
    exec .push_BC atDma = .refused .dmaUnmodelled :=
  ⟨by decide, rfl, rfl, rfl⟩

theorem witness_CycleCounts : (∃ t, exec (.jr_Z_e8 0x80) State.reset = .next t) ∧
    ∃ t, exec (.jr_NZ_e8 0x80) State.reset = .next t :=
  ⟨exists_next (by decide), exists_next (by decide)⟩

theorem witness_InstructionFrame : (∃ t, exec (.call_Z_a16 0) State.reset = .next t) ∧
    storesOf (.call_Z_a16 0) State.reset = [0xFFFD, 0xFFFC] ∧ storesOf (.call_NZ_a16 0) State.reset = [] :=
  ⟨exists_next (by decide), by decide, by decide⟩

/-- LD (0xC234),A in the last three bytes of high RAM. -/
theorem witness_StepRunsDecoded :
    let s := placeInstr [0xEA, 0x34, 0xC2] (atPc 0xFFFC State.reset)
    let w := { wake (beginStep s) with start := s.pc }
    performs s = true ∧ s.irq.hbPending = false ∧
    decode (codeBytes 3 s.pc w) = .ok (.ld_ata16_A 0xC234, []) :=
  ⟨by decide +kernel, by decide, rfl⟩

theorem decode_bytes {b : Byte} {bs cs : List Byte} {i : Instr} {r : List Byte} (hb : b = cs.headD 0) (hs : bs = cs.tail)
    (hc : cs ≠ []) (h : decode cs = .ok (i, r)) : decode (b :: bs) = .ok (i, r) := by
  cases cs with
  | nil => exact absurd rfl hc
  | cons c cs => subst hb; subst hs; exact h

theorem witness_HaltBugFetch :
    let s := haltBugPending [0x3E]
    let w := { wake (beginStep s) with start := s.pc }
    performs s = true ∧ s.irq.hbPending = true ∧
    decode (w.readByte s.pc :: codeBytes 2 s.pc (w.noteRead s.pc)) = .ok (.ld_A_n8 0x3E, [0xFF]) :=
  ⟨by decide +kernel, by decide +kernel,
    decode_bytes (cs := [0x3E, 0x3E, 0xFF]) (by decide +kernel) (by decide +kernel) (by decide) rfl⟩

theorem witness_MarksStick :
    ({ State.reset with fault := some (.decodeError 0 0xD3) } : State).fault = some (.decodeError 0 0xD3) ∧
    ({ State.reset with refused := some .stopUnmodelled } : State).refused = some .stopUnmodelled ∧
    ({ State.reset with refused := some .stopUnmodelled } : State).fault = none := by decide

/-- IE is 0 after reset, so nothing is pending; with IE's bit 0 set, VBlank is. -/
theorem witness_HaltedState :
    (halted.irq.halted = true ∧ halted.fault = none ∧ halted.refused = none ∧
      ∀ i < 5, ((beginStep halted).irq.ie.getLsbD i && (beginStep halted).irq.ifr.getLsbD i) = false) ∧
    (beginStep (withIe 0x01 halted)).pending ≠ 0 := by decide

/-- Source 0 and source 4 alone, and a push that is refused. -/
theorem witness_ServiceEntry :
    (let s := withIe 0x1F (State.reset.setMasterEnable true);
      s.fault = none ∧ s.refused = none ∧ s.irq.ime = true ∧
      (∀ j ≤ 0, ((beginStep s).irq.ie.getLsbD j && (beginStep s).irq.ifr.getLsbD j) = decide (j = 0)) ∧
      mayPush s = true) ∧
    (let s := withIe 0x10 ((State.reset.setMasterEnable true).raise 4);
      s.fault = none ∧ s.refused = none ∧ s.irq.ime = true ∧
      (∀ j ≤ 4, ((beginStep s).irq.ie.getLsbD j && (beginStep s).irq.ifr.getLsbD j) = decide (j = 4)) ∧
      mayPush s = true) ∧
    (let s := withIe 0x01 (atDma.setMasterEnable true);
      s.fault = none ∧ s.refused = none ∧ s.irq.ime = true ∧
      (∀ j ≤ 0, ((beginStep s).irq.ie.getLsbD j && (beginStep s).irq.ifr.getLsbD j) = decide (j = 0)) ∧
      mayPush s = false) := by decide

theorem witness_EnvironmentRequests :
    let e : EnvRequest := { timer := true, serial := false, joypad := true }
    ({ State.reset with env := [e] } : State).env = e :: [] := by decide

theorem witness_RomReads :
    ((0xFF#16).toNat < 0x100 ∧ ({ State.reset with bootMapped := true } : State).bootMapped = true) ∧
    ((0x100#16).toNat < 0x4000 ∧ ¬(({ State.reset with bootMapped := true } : State).bootMapped = true ∧
      (0x100#16).toNat < 0x100)) ∧
    ((0x3FFF#16).toNat < 0x4000 ∧ ¬(State.reset.bootMapped = true ∧ (0x3FFF#16).toNat < 0x100)) ∧
    (0x4000 ≤ (0x4000#16).toNat ∧ (0x7FFF#16).toNat < 0x8000) ∧ State.reset.cart.kind = .romOnly := by decide

theorem witness_RamWriteThenRead :
    Memory.wf State.reset.mem = true ∧ State.reset.ramKey 0xC000 = some 0xC000 ∧
    State.reset.ramKey 0xFDFF = some 0xDDFF ∧ State.reset.ramKey 0xFFFE = some 0xFFFE ∧
    0xC000 ≤ (0xDDFF#16).toNat ∧ (0xDDFF#16).toNat < 0xDE00 := by decide

theorem witness_ExternalRam :
    (let s := withMapper { MapperState.initial with ramEnable := true } (withCart .mbc1Ram 1 State.reset);
      s.mapper.ramEnable = true ∧ 0 < s.cart.ramSize ∧ 0xA000 ≤ (0xA000#16).toNat ∧ (0xBFFF#16).toNat < 0xC000) ∧
    (State.reset.mapper.ramEnable = false ∧ State.reset.cart.ramSize = 0) := by decide

theorem witness_UnmappedAccess :
    ∀ a ∈ [0xFEA0#16, 0xFEFF#16, 0xFF03#16, 0xFF08#16, 0xFF0E#16, 0xFF15#16, 0xFF1F#16, 0xFF27#16, 0xFF2F#16, 0xFF4C#16,
      0xFF4F#16, 0xFF51#16, 0xFF7F#16],
      (0xFEA0 ≤ a.toNat ∧ a.toNat ≤ 0xFEFF) ∨ a.toNat = 0xFF03 ∨ (0xFF08 ≤ a.toNat ∧ a.toNat ≤ 0xFF0E) ∨
        a.toNat = 0xFF15 ∨ a.toNat = 0xFF1F ∨ (0xFF27 ≤ a.toNat ∧ a.toNat ≤ 0xFF2F) ∨
        (0xFF4C ≤ a.toNat ∧ a.toNat ≤ 0xFF4F) ∨ (0xFF51 ≤ a.toNat ∧ a.toNat ≤ 0xFF7F) := by simp

theorem witness_MapperWrites :
    (0x7FFF#16).toNat < 0x8000 ∧ State.reset.cart.kind = .romOnly ∧
    (withCart .mbc1 0 State.reset).cart.kind ≠ .romOnly := by decide

/-- Of two ROM banks and one RAM bank, 1 is a bank in mode 0; in mode 1, 96 + 1, 96 and 3 are past the end; and a
cartridge of the largest sizes has them all. -/
theorem witness_EffectiveBanks :
    (let s := withCart .mbc1 0 State.reset;
      s.cart.kind ≠ .romOnly ∧ s.mapper.bankMode = false ∧ s.mapper.raw4000 < s.cart.romBanks) ∧
    (let s := withMapper { MapperState.initial with bankHi := 3, bankMode := true } (withCart .mbc1Ram 2 State.reset);
      s.cart.kind ≠ .romOnly ∧ s.mapper.bankMode = true ∧ s.cart.romBanks ≤ 32 * s.mapper.bankHi.toNat + 1 ∧
      s.cart.romBanks ≤ 32 * s.mapper.bankHi.toNat ∧ s.cart.ramBanks ≤ s.mapper.bankHi.toNat) ∧
    (let s := withMapper { MapperState.initial with bankHi := 3, bankMode := true } (withCart .mbc1Ram 4 State.reset);
      ({ s.cart with romCode := 8 } : Cartridge).romBanks = 512 ∧ s.mapper.bankHi.toNat < s.cart.ramBanks) := by
  decide

theorem witness_RegisterReadback :
    isAudioAddr (0xFF10#16).toNat = true ∧ isAudioAddr (0xFF3F#16).toNat = true ∧
    Memory.wf State.reset.aud = true := by decide

theorem witness_DisplayWrites :
    State.reset.ppu.lcdc.getLsbD 7 = (0x80#8).getLsbD 7 ∧ State.reset.ppu.lcdc.getLsbD 7 ≠ (0x7F#8).getLsbD 7 ∧
    (0x7F#8).getLsbD 7 = false := by decide

theorem witness_OamDma :
    State.reset.params.dma = .refuse ∧ (withDma .instant State.reset).params.dma = .instant ∧
    Memory.wf (withDma .instant State.reset).mem = true ∧ (0xFE#8).toNat < 0xFF := by decide

theorem witness_ReadsAndDevices :
    (∀ a ∈ [0xFF00#16, 0xFF01#16, 0xFF02#16, 0xFF04#16, 0xFF07#16],
      a.toNat = 0xFF00 ∨ a.toNat = 0xFF01 ∨ a.toNat = 0xFF02 ∨ (0xFF04 ≤ a.toNat ∧ a.toNat ≤ 0xFF07)) ∧
    isExternal 0xFF03 = false ∧ isExternal 0xFF08 = false := ⟨by simp, by decide, by decide⟩

theorem witness_ResetWithoutBoot : Setup.default.boot = none := rfl

/-- A boot image of one byte at its last address. -/
def withBoot : Setup := { Setup.default with boot := some [(0xFF, 0x50)] }

theorem witness_ResetWithBoot : withBoot.boot = some [(0xFF, 0x50)] := rfl

/-- The last dot of the frame, and the last dot before line 144. -/
theorem witness_TickPosition :
    (let s := withPosition 153 455 State.reset;
      s.ppu.positionOk = true ∧ s.ppu.lcdc.getLsbD 7 = true) ∧
    (let s := withPosition 143 455 State.reset;
      s.ppu.positionOk = true ∧ s.ppu.lcdc.getLsbD 7 = true) := by decide

theorem witness_FramePeriod : State.reset.ppu.positionOk = true ∧ State.reset.ppu.lcdc.getLsbD 7 = true := by decide

/-- The last dot before line 144, and the dot before the entry to mode 0 on the last drawn line. -/
theorem witness_TickRequests :
    (let s := withPosition 143 455 State.reset;
      s.ppu.positionOk = true ∧ s.ppu.lcdc.getLsbD 7 = true ∧ (tick s).ppu.dot = 0 ∧ (tick s).ppu.ly = 144) ∧
    (let s := withPosition 143 251 State.reset;
      s.ppu.positionOk = true ∧ s.ppu.lcdc.getLsbD 7 = true ∧ (tick s).ppu.dot = 252) := by decide

/-- The entry to mode 3 of the last visible line; the same dot of the line after it, the last dot of a line, and the
display off. -/
theorem witness_LineDrawn :
    (let s := withPosition 143 79 State.reset;
      frameWf s.ppu.fb = true ∧ s.ppu.ly.toNat < 144 ∧ s.ppu.lcdc.getLsbD 7 = true ∧ s.ppu.dot = 79) ∧
    ¬(withPosition 144 79 State.reset).ppu.ly.toNat < 144 ∧ (withPosition 143 455 State.reset).ppu.dot ≠ 79 ∧
    (State.reset.ppu.writeLcdc 0x11).lcdc.getLsbD 7 = false := by decide

/-- WX 166 leaves one column of the window; WX 167 none. -/
theorem witness_BackgroundAndWindow :
    (let s : State := { State.reset with ppu := { State.reset.ppu with lcdc := 0xB1, wx := 166 } };
      s.ppu.ly.toNat < 144 ∧ s.ppu.lcdc.getLsbD 5 = true ∧ s.ppu.wy.toNat ≤ s.ppu.ly.toNat ∧
      s.ppu.wx.toNat ≤ 159 + 7) ∧
    (let s : State := { State.reset with ppu := { State.reset.ppu with lcdc := 0xB1, wx := 167 } };
      ¬(s.ppu.lcdc.getLsbD 5 = true ∧ s.ppu.wy.toNat ≤ s.ppu.ly.toNat ∧ s.ppu.wx.toNat ≤ 159 + 7)) := by decide

/-- Eleven sprites that cover line 0: the eleventh is the one not selected. -/
def elevenSprites : State :=
  { State.reset with mem := (List.range 11).map (fun n => (0xFE00 + 4 * n, 0x10#8)) }

theorem witness_OamScan : elevenSprites.oamSelect = List.range 10 ∧
    (elevenSprites.readByte 0xFE28).toNat ≤ elevenSprites.ppu.ly.toNat + 16 ∧
    elevenSprites.ppu.ly.toNat + 16 < (elevenSprites.readByte 0xFE28).toNat + 8 := by decide

/-- Between the steps of EI and of what follows it, with `bs` next. -/
def afterEi (bs : List Byte) : State :=
  let s := placeInstr bs State.reset
  { s with irq := { s.irq with eiDelay := 1 } }

theorem inv_afterEi : Inv (afterEi [0x3C]) := by
  constructor <;> decide

theorem inv_placed_reti : Inv (placeInstr [0xD9] State.reset) := by
  constructor <;> decide

theorem witness_MasterEnable :
    (Inv (afterEi [0x3C]) ∧ (∃ t, step (afterEi [0x3C]) = .next t) ∧
      (afterEi [0x3C]).irq.ime = false ∧ performs (afterEi [0x3C]) = true ∧ (afterEi [0x3C]).irq.eiDelay = 1 ∧
      (fetchInstr { wake (beginStep (afterEi [0x3C])) with start := (afterEi [0x3C]).pc }).1 ≠ .di) ∧
    (let s := placeInstr [0xD9] State.reset;
      Inv s ∧ s.irq.ime = false ∧ after [0xD9] (fun t => t.irq.ime) State.reset = some true) :=
  ⟨⟨inv_afterEi, exists_next (by decide +kernel), by decide +kernel, by decide +kernel, by decide +kernel, by decide +kernel⟩,
    inv_placed_reti, by decide +kernel, by decide +kernel⟩

theorem witness_StepKeepsInv : Inv (afterEi [0x3C]) ∧ ∃ t, step (afterEi [0x3C]) = .next t :=
  ⟨inv_afterEi, exists_next (by decide +kernel)⟩

theorem witness_ResetInv : Setup.default.wf = true ∧ withBoot.wf = true := by decide +kernel

theorem witness_EveryStep : (∃ t, step State.reset = .next t) ∧ State.reset.bootMapped = false :=
  ⟨exists_next (by decide +kernel), rfl⟩

end Sys2Proof.Tests
end

/-! PROOFS of O28, O60 and O33 (00_scope). `execSpec` says once what each instruction but STOP and the illegal
bytes can do; its proof follows the decoder's tables, one lemma per family of rows. `step_next` says what a step
that answers a next state keeps. -/

namespace Sys2Proof.Machine

section

variable (s : State)

/-! ### The instruction set as the decoder gives it -/

theorem encode_ne_nil (i : Instr) : encode i ≠ [] := by
  intro h
  cases i <;> cases h

/-- R80, R81: the decoder reads every well-formed instruction back from its encoding. -/
theorem decodeBytes_encode {i : Instr} {o : Byte} {r : List Byte} (h : i.wellFormed = true)
    (he : encode i = o :: r) : decodeBytes o (r.getD 0 0) (r.getD 1 0) = i := by
  cases i <;> cases he
  case prefixCB => cases h
  case ld_BC_n16 nn | ld_ata16_SP nn | ld_DE_n16 nn | ld_HL_n16 nn | ld_SP_n16 nn | jp_NZ_a16 nn | jp_a16 nn |
      call_NZ_a16 nn | jp_Z_a16 nn | call_Z_a16 nn | call_a16 nn | jp_NC_a16 nn | call_NC_a16 nn | jp_C_a16 nn |
      call_C_a16 nn | ld_ata16_A nn | ld_A_ata16 nn =>
    conv_rhs => rw [← joinBytes_hi_lo nn]
    rfl
  all_goals rfl

/-- Every instruction but the escape byte's row is one that some bytes decode to. -/
theorem prefixCB_or_decoded (i : Instr) :
    (∃ op, i = .prefixCB op) ∨ ∃ b0 b1 b2, i = decodeBytes b0 b1 b2 := by
  obtain ⟨o, r, he⟩ := List.exists_cons_of_ne_nil (encode_ne_nil i)
  cases h : i.wellFormed with
  | true => exact .inr ⟨_, _, _, (decodeBytes_encode h he).symm⟩
  | false =>
    unfold Instr.wellFormed at h
    split at h
    · exact .inl ⟨_, rfl⟩
    · cases h

theorem fieldX_cases (o : Byte) : fieldX o = 0 ∨ fieldX o = 1 ∨ fieldX o = 2 ∨ fieldX o = 3 := by
  have h : fieldX o < 4 := (o.extractLsb' 6 2).isLt
  omega

/-! ### What each family of instructions can do -/

/-- The execution control that instruction `i`, performed in `s`, leaves (R200, R211, R213, R214). -/
def controlAfter (i : Instr) (s : State) : Bool × Nat × Bool × Bool :=
  match i with
  | .reti => (true, 0, s.irq.halted, s.irq.hbPending)
  | .di => (false, 0, s.irq.halted, s.irq.hbPending)
  | .ei =>
    (s.irq.ime, if s.irq.ime = false ∧ s.irq.eiDelay = 0 then 2 else s.irq.eiDelay, s.irq.halted,
      s.irq.hbPending)
  | .halt =>
    if s.params.haltBug = true ∧ s.irq.ime = false ∧ s.pending ≠ 0 then
      (s.irq.ime, s.irq.eiDelay, s.irq.halted, true)
    else (s.irq.ime, s.irq.eiDelay, true, s.irq.hbPending)
  | _ => s.irq.ctl

/-- Everything that instruction `i` can do in `s`: it stores where `storesOf` says, costs the opcode table's
count and leaves the control `controlAfter`. -/
def ExecSpec (s : State) (i : Instr) : Prop :=
  OpSpec s (storesOf i s) (tableCycles i s.flags) (controlAfter i s) (exec i s)

theorem execSpec_ldRR (dst src : Reg8) : ExecSpec s (Instr.ldRR dst src) := by
  have h := opSpec_loadReg s dst src
  cases dst <;> cases src <;> exact h

theorem execSpec_ldRN (dst : Reg8) (n : Byte) : ExecSpec s (Instr.ldRN dst n) := by
  have h := opSpec_loadImm s dst n
  cases dst <;> exact h

theorem execSpec_ldRHl (dst : Reg8) : ExecSpec s (Instr.ldRHl dst) := by
  have h := opSpec_loadMem s dst s.hl 8
  cases dst <;> exact h

theorem execSpec_ldHlR (src : Reg8) : ExecSpec s (Instr.ldHlR src) := by
  have h := opSpec_storeMem s s.hl (s.reg src) 8
  cases src <;> exact h

theorem execSpec_ldR16N (rr : Reg16) (nn : Word) : ExecSpec s (Instr.ldR16N rr nn) := by
  have h := opSpec_loadR16 s rr nn
  cases rr <;> exact h

theorem execSpec_push (rr : StkReg) : ExecSpec s (Instr.push rr) := by
  have h := opSpec_pushReg s rr
  cases rr <;> exact h

theorem execSpec_pop (rr : StkReg) : ExecSpec s (Instr.pop rr) := by
  have h := opSpec_popReg s rr
  cases rr <;> exact h

theorem execSpec_incR16 (rr : Reg16) : ExecSpec s (Instr.incR16 rr) := by
  have h := opSpec_incPair s rr
  cases rr <;> exact h

theorem execSpec_decR16 (rr : Reg16) : ExecSpec s (Instr.decR16 rr) := by
  have h := opSpec_decPair s rr
  cases rr <;> exact h

theorem execSpec_addHlR16 (rr : Reg16) : ExecSpec s (Instr.addHlR16 rr) := by
  have h := opSpec_addHlPair s rr
  cases rr <;> exact h

theorem execSpec_incR8 (r : Operand8) : ExecSpec s (Instr.incR8 r) := by
  have h := opSpec_incOperand s r
  rcases r with (_ | _ | _ | _ | _ | _ | _) | _ <;> exact h

theorem execSpec_decR8 (r : Operand8) : ExecSpec s (Instr.decR8 r) := by
  have h := opSpec_decOperand s r
  rcases r with (_ | _ | _ | _ | _ | _ | _) | _ <;> exact h

theorem execSpec_aluR (op : Alu) (r : Operand8) : ExecSpec s (Instr.aluR op r) := by
  have h := opSpec_aluOperand s op r
  cases op <;> rcases r with (_ | _ | _ | _ | _ | _ | _) | _ <;> exact h

theorem execSpec_aluN (op : Alu) (n : Byte) : ExecSpec s (Instr.aluN op n) := by
  have h := opSpec_aluImm s op n
  cases op <;> exact h

theorem execSpec_jpCc (cc : Cond) (nn : Word) : ExecSpec s (Instr.jpCc cc nn) := by
  have h := opSpec_jumpIf s cc nn
  cases cc <;> exact h

theorem execSpec_jrCc (cc : Cond) (e : Byte) : ExecSpec s (Instr.jrCc cc e) := by
  have h := opSpec_jumpRelIf s cc e
  cases cc <;> exact h

theorem execSpec_callCc (cc : Cond) (nn : Word) : ExecSpec s (Instr.callCc cc nn) := by
  have h := opSpec_callIf s cc nn
  cases cc <;> exact h

theorem execSpec_retCc (cc : Cond) : ExecSpec s (Instr.retCc cc) := by
  have h := opSpec_retIf s cc
  cases cc <;> exact h

theorem execSpec_rst (y : Fin 8) : ExecSpec s (Instr.rst y) := by
  have h := opSpec_call s (restartVector y) 16
  fin_cases y <;> exact h

theorem execSpec_rotR (op : Rot) (r : Operand8) : ExecSpec s (Instr.rotR op r) := by
  have h := opSpec_rotateOperand s op r
  cases op <;> rcases r with (_ | _ | _ | _ | _ | _ | _) | _ <;> exact h

theorem execSpec_bitR (b : Fin 8) (r : Operand8) : ExecSpec s (Instr.bitR b r) := by
  have h := opSpec_testBit s b r
  fin_cases b <;> rcases r with (_ | _ | _ | _ | _ | _ | _) | _ <;> exact h

theorem execSpec_resR (b : Fin 8) (r : Operand8) : ExecSpec s (Instr.resR b r) := by
  have h := opSpec_resetBitOf s b r
  fin_cases b <;> rcases r with (_ | _ | _ | _ | _ | _ | _) | _ <;> exact h

theorem execSpec_setR (b : Fin 8) (r : Operand8) : ExecSpec s (Instr.setR b r) := by
  have h := opSpec_setBitOf s b r
  fin_cases b <;> rcases r with (_ | _ | _ | _ | _ | _ | _) | _ <;> exact h

/-- The prefixed table's count: BIT only reads (HL), the other operations write it back (R284). -/
theorem prefixedCycles_eq (op : Byte) : cycleEntry prefixedCycles op =
    if fieldX op = 1 then costOf (operand8OfCode (fieldZ op)) 8 12
    else costOf (operand8OfCode (fieldZ op)) 8 16 := by
  revert op; decide +kernel

theorem execSpec_prefixCB (op : Byte) : ExecSpec s (.prefixCB op) := by
  change OpSpec s (if fieldX op = 1 then [] else operandStore (operand8OfCode (fieldZ op)) s)
    (cycleEntry prefixedCycles op) s.irq.ctl (prefixedRow op s)
  rw [prefixedCycles_eq]
  unfold prefixedRow
  rcases fieldX_cases op with h | h | h | h <;> simp only [h]
  · exact opSpec_rotateOperand s _ _
  · exact opSpec_testBit s _ _
  · exact opSpec_resetBitOf s _ _
  · exact opSpec_setBitOf s _ _

/-! ### What every instruction can do -/

theorem execSpec_decodePrefixed (o : Byte) : ExecSpec s (decodePrefixed o) := by
  unfold decodePrefixed
  split
  · exact execSpec_rotR s _ _
  · exact execSpec_bitR s _ _
  · exact execSpec_resR s _ _
  · exact execSpec_setR s _ _

/-- R89, `x = 0`: every row but STOP. -/
theorem execSpec_decodeX0 (o n : Byte) (nn : Word) :
    isStop (decodeX0 o n nn) = false → ExecSpec s (decodeX0 o n nn) := by
  unfold decodeX0
  split
  · split <;> intro hs
    · exact opSpec_noOperation s
    · exact opSpec_storeSp s nn
    · cases hs
    · exact opSpec_jump s _ 12
    · exact execSpec_jrCc s _ n
  · split <;> intro _
    · exact execSpec_addHlR16 s _
    · exact execSpec_ldR16N s _ nn
  · split <;> intro _
    · exact opSpec_storeMem s s.bc (s.reg .a) 8
    · exact opSpec_storeMem s s.de (s.reg .a) 8
    · exact opSpec_storeMemStep s 1#16
    · exact opSpec_storeMemStep s (-1#16)
    · exact opSpec_loadMem s .a s.bc 8
    · exact opSpec_loadMem s .a s.de 8
    · exact opSpec_loadMemStep s 1#16
    · exact opSpec_loadMemStep s (-1#16)
  · split <;> intro _
    · exact execSpec_decR16 s _
    · exact execSpec_incR16 s _
  · exact fun _ => execSpec_incR8 s _
  · exact fun _ => execSpec_decR8 s _
  · split <;> intro _
    · exact execSpec_ldRN s _ n
    · exact opSpec_storeMem s s.hl n 12
  · split <;> intro _
    · exact opSpec_rotateA s .rlc
    · exact opSpec_rotateA s .rrc
    · exact opSpec_rotateA s .rl
    · exact opSpec_rotateA s .rr
    · exact opSpec_decimalAdjust s
    · exact opSpec_complementA s
    · exact opSpec_setCarry s
    · exact opSpec_complementCarry s

/-- R89, `x = 1`. -/
theorem execSpec_decodeX1 (o : Byte) : ExecSpec s (decodeX1 o) := by
  unfold decodeX1
  split
  · exact execSpec_ldRR s _ _
  · exact execSpec_ldRHl s _
  · exact execSpec_ldHlR s _
  · exact opSpec_haltCpu s

/-- R89, `x = 3`: every row but the illegal bytes of R91. -/
theorem execSpec_decodeX3 (o n : Byte) (nn : Word) :
    illegalByte (decodeX3 o n nn) = none → ExecSpec s (decodeX3 o n nn) := by
  unfold decodeX3
  split
  · split <;> intro _
    · exact opSpec_storeMem s (highPage n) (s.reg .a) 12
    · exact opSpec_addSpOffset s n
    · exact opSpec_loadMem s .a (highPage n) 12
    · exact opSpec_hlFromSpOffset s n
    · exact execSpec_retCc s _
  · split <;> intro _
    · exact execSpec_pop s _
    · exact opSpec_ret s 16
    · exact opSpec_returnInterrupt s
    · exact opSpec_jump s s.hl 4
    · exact opSpec_spFromHl s
  · split <;> intro _
    · exact opSpec_storeMem s (highPage (s.reg .c)) (s.reg .a) 8
    · exact opSpec_storeMem s nn (s.reg .a) 16
    · exact opSpec_loadMem s .a (highPage (s.reg .c)) 8
    · exact opSpec_loadMem s .a nn 16
    · exact execSpec_jpCc s _ nn
  · split <;> intro hi
    · exact opSpec_jump s nn 16
    · exact execSpec_decodePrefixed s n
    · cases hi
    · cases hi
    · cases hi
    · cases hi
    · exact opSpec_disableInterrupts s
    · exact opSpec_enableInterrupts s
  · split <;> intro hi
    · cases hi
    · cases hi
    · cases hi
    · cases hi
    · exact execSpec_callCc s _ nn
  · split <;> intro hi
    · exact execSpec_push s _
    · exact opSpec_call s nn 24
    · cases hi
    · cases hi
    · cases hi
  · exact fun _ => execSpec_aluN s _ n
  · exact fun _ => execSpec_rst s _

theorem execSpec_decodeBytes (b0 b1 b2 : Byte) :
    illegalByte (decodeBytes b0 b1 b2) = none → isStop (decodeBytes b0 b1 b2) = false →
      ExecSpec s (decodeBytes b0 b1 b2) := by
  unfold decodeBytes
  split <;> intro hi hs
  · exact execSpec_decodeX0 s b0 b1 _ hs
  · exact execSpec_decodeX1 s b0
  · exact execSpec_aluR s _ _
  · exact execSpec_decodeX3 s b0 b1 _ hi

/-- What every instruction but STOP and the illegal bytes does. -/
theorem execSpec {i : Instr} (hi : illegalByte i = none) (hs : isStop i = false) : ExecSpec s i := by
  obtain ⟨op, rfl⟩ | ⟨b0, b1, b2, rfl⟩ := prefixCB_or_decoded i
  · exact execSpec_prefixCB s op
  · exact execSpec_decodeBytes s b0 b1 b2 hi hs

/-- R91, R215: an illegal byte faults, and stores nothing. -/
theorem exec_illegal {i : Instr} {b : Byte} (h : illegalByte i = some b) :
    exec i s = .fault (.decodeError s.start b) ∧ storesOf i s = [] := by
  unfold illegalByte at h
  split at h <;> cases h <;> exact ⟨rfl, rfl⟩

/-- R212: STOP is refused, and stores nothing. -/
theorem exec_isStop {i : Instr} (h : isStop i = true) :
    exec i s = .refused .stopUnmodelled ∧ storesOf i s = [] := by
  unfold isStop at h
  split at h
  · exact ⟨rfl, rfl⟩
  · cases h

theorem isStop_of_illegal {i : Instr} {b : Byte} (h : illegalByte i = some b) : isStop i = false := by
  unfold illegalByte at h
  split at h <;> cases h <;> rfl

/-! ### The cycle counts of the table -/

/-- A count that a step may return (R283, R284). -/
abbrev ValidCount (n : Nat) : Prop := 4 ≤ n ∧ n ≤ 24 ∧ n % 4 = 0

theorem prefixedCycles_valid (o : Byte) : ValidCount (cycleEntry prefixedCycles o) := by
  revert o; decide +kernel

/-- The eleven bytes of R91. -/
def illegalBytes : List Byte :=
  [0xD3#8, 0xDB#8, 0xDD#8, 0xE3#8, 0xE4#8, 0xEB#8, 0xEC#8, 0xED#8, 0xF4#8, 0xFC#8, 0xFD#8]

theorem illegalByte_decodeBytes {o : Byte} (ho : o ∈ illegalBytes) (b1 b2 : Byte) :
    illegalByte (decodeBytes o b1 b2) = some o := by
  unfold illegalBytes at ho
  fin_cases ho <;> rfl

/-- The table gives every opcode byte a count but 0xCB, STOP and the illegal bytes. -/
theorem baseCycles_valid (o : Byte) :
    o = 0xCB#8 ∨ o = 0x10#8 ∨ o ∈ illegalBytes ∨ ValidCount (cycleEntry baseCycles o) := by
  revert o; decide +kernel

theorem takenCycles_valid {i : Instr} {cc : Cond} {o : Byte} {r : List Byte} (h : conditionOf i = some cc)
    (he : encode i = o :: r) : ValidCount (cycleEntry takenCycles o) := by
  cases i <;> cases h
  all_goals
    cases he
    decide

theorem wellFormed_of_encode {i : Instr} {o : Byte} {r : List Byte} (he : encode i = o :: r) (h : o ≠ 0xCB#8) :
    i.wellFormed = true := by
  unfold Instr.wellFormed
  split
  · cases he
    exact absurd rfl h
  · rfl

/-- R284: the table gives a count to every instruction but STOP and the illegal bytes. -/
theorem tableCycles_valid {i : Instr} (hi : illegalByte i = none) (hs : isStop i = false) (g : Flags) :
    ValidCount (tableCycles i g) := by
  obtain ⟨o, r, he⟩ := List.exists_cons_of_ne_nil (encode_ne_nil i)
  simp only [tableCycles, he]
  split
  · exact prefixedCycles_valid _
  · next hcb =>
    have hd := decodeBytes_encode (wellFormed_of_encode he hcb) he
    have hbase : ValidCount (cycleEntry baseCycles o) := by
      obtain ho | rfl | ho | ho := baseCycles_valid o
      · exact absurd ho hcb
      · rw [← hd] at hs
        cases hs
      · rw [← hd, illegalByte_decodeBytes ho] at hi
        cases hi
      · exact ho
    split
    · exact hbase
    · next hc =>
      split
      · exact takenCycles_valid hc he
      · exact hbase

/-! ### What the parts of a step keep -/

theorem kept_irq (q : Irq) : Kept s { s with irq := q } :=
  ⟨⟨rfl, rfl, rfl, rfl, rfl, rfl⟩, rfl, rfl, rfl, rfl, id, id, id, id⟩

theorem kept_eiCountdown : Kept s (eiCountdown s) := by
  unfold eiCountdown
  split
  · exact kept_onlyRegisters s rfl
  · exact kept_irq s _
  · exact kept_irq s _

theorem kept_fetchByte : Kept s (fetchByte s).2 := by
  cases h : s.irq.hbPending with
  | false =>
    rw [fetchByte_eq s h]
    exact kept_trans s (kept_noteRead s s.pc) (kept_onlyRegisters _ rfl)
  | true =>
    rw [fetchByte_haltBug s h]
    exact kept_trans s (kept_noteRead s s.pc) (kept_irq _ _)

theorem kept_fetchInstr : Kept s (fetchInstr s).2 := by
  have h1 := kept_fetchByte s
  have h2 := kept_trans s h1 (kept_fetchByte (fetchByte s).2)
  have h3 := kept_trans s h2 (kept_fetchByte (fetchByte (fetchByte s).2).2)
  unfold fetchInstr
  dsimp only
  split
  · exact h1
  · exact h2
  · exact h3

/-- The illegal bytes and STOP answer no next state. -/
theorem executes_of_next {i : Instr} {t : State} (h : exec i s = .next t) :
    illegalByte i = none ∧ isStop i = false := by
  constructor
  · cases hi : illegalByte i with
    | none => rfl
    | some b =>
      rw [(exec_illegal s hi).1] at h
      cases h
  · cases hs : isStop i with
    | false => rfl
    | true =>
      rw [(exec_isStop s hs).1] at h
      cases h

/-- An instruction that completes keeps what no instruction breaks, at a count of the table. -/
theorem exec_next {i : Instr} {t : State} (h : exec i s = .next t) : Kept s t ∧ ValidCount t.out.cycles := by
  obtain ⟨hi, hs⟩ := executes_of_next s h
  obtain ⟨-, hk, -, hn, -⟩ := (execSpec s hi hs).next t h
  exact ⟨hk, hn ▸ tableCycles_valid hi hs s.flags⟩

theorem perform_next {t : State} (h : perform s = .next t) :
    Kept { s with start := s.pc } t ∧ ValidCount t.out.cycles := by
  obtain ⟨hk, hn⟩ := exec_next (fetchInstr { s with start := s.pc }).2 h
  exact ⟨kept_trans _ (kept_fetchInstr _) hk, hn⟩

theorem kept_push16 {v : Word} {t : State} (h : push16 v s = .next t) : Kept s t := by
  rw [push16_eq] at h
  obtain ⟨u, hu, h⟩ := andThen_eq_next h
  obtain ⟨w, hw, h⟩ := andThen_eq_next h
  cases h
  exact kept_trans s (kept_memWrite s hu) (kept_trans u (kept_memWrite u hw) (kept_onlyRegisters w rfl))

theorem lowestBit_exists {m : BitVec 5} (h : m ≠ 0) : ∃ i, lowestBit m = some i := by
  revert m; decide

/-- R228, R233: taking a pending interrupt. -/
theorem service_next {t : State} (hp : s.pending ≠ 0) (h : service s = .next t) :
    Kept s t ∧ t.out.cycles = 20 := by
  obtain ⟨i, hi⟩ := lowestBit_exists hp
  simp only [service, State.pendingInterrupt, hi] at h
  obtain ⟨u, hu, h⟩ := andThen_eq_next h
  cases h
  exact ⟨kept_trans s (kept_irq s _) (kept_trans _ (kept_push16 _ hu)
    (kept_trans u (kept_irq u _) (kept_onlyRegisters _ rfl))), rfl⟩

theorem ppuWrote_setting {t : State} (h : ppuWrote s t) :
    sameSetting s t ∧ t.bootMapped = s.bootMapped ∧ t.out.cycles = s.out.cycles := by
  rw [h]
  exact ⟨⟨rfl, rfl, rfl, rfl, rfl, rfl⟩, rfl, rfl⟩

/-- R5, R6: a step that answers a next state ends with the PPU's advance, by a valid count, from a state `u` that
the CPU step left. -/
theorem step_next {t : State} (h : step s = .next t) :
    s.fault = none ∧ s.refused = none ∧ ∃ u, t = advance u.out.cycles u ∧ ValidCount u.out.cycles ∧
      sameSetting (beginStep s) u ∧ ((beginStep s).bootMapped = false → u.bootMapped = false) := by
  obtain ⟨f, -, hst⟩ | ⟨r, -, -, hst⟩ | ⟨hf, hr, -, -, hst⟩ | ⟨hf, hr, -, hp, hst⟩ | ⟨hp, hst⟩ :=
    step_cases s
  · rw [hst] at h
    cases h
  · rw [hst] at h
    cases h
  · rw [hst] at h
    cases h
    have hk := kept_onlyRegisters (beginStep s) (t := (beginStep s).cost 4) rfl
    exact ⟨hf, hr, _, rfl, (by decide : ValidCount 4), hk.setting, hk.boot⟩
  · rw [hst] at h
    obtain ⟨u, hu, h⟩ := andThen_eq_next h
    cases h
    obtain ⟨hk, hn⟩ := service_next (wake (beginStep s)) hp hu
    exact ⟨hf, hr, u, rfl, by rw [hn]; decide, hk.setting, hk.boot⟩
  · rw [hst] at h
    obtain ⟨u, hu, h⟩ := andThen_eq_next h
    cases h
    obtain ⟨hk, hn⟩ := perform_next (wake (beginStep s)) hu
    have hk := kept_trans _ hk (kept_eiCountdown u)
    have ho : (eiCountdown u).out = u.out := by simp
    simp only [performs, Bool.and_eq_true, decide_eq_true_eq] at hp
    exact ⟨hp.1.1.1, hp.1.1.2, eiCountdown u, by rw [ho], by rw [ho]; exact hn, hk.setting, hk.boot⟩

/-! ### Marks -/

theorem settle_fault {f : Fault} (h : step s = .fault f) : s.settle = { beginStep s with fault := some f } := by
  unfold State.settle settleStep
  rw [show systemStep s = _ from h]

theorem settle_refused {r : Refusal} (h : step s = .refused r) :
    s.settle = { beginStep s with refused := some r } := by
  unfold State.settle settleStep
  rw [show systemStep s = _ from h]

theorem step_of_fault {f : Fault} (h : s.fault = some f) : step s = .fault f := by
  have hb : (beginStep s).fault = some f := by simp [beginStep, h]
  simp [step, systemStep, cpuStep, hb, andThen]

theorem step_of_refused {r : Refusal} (hf : s.fault = none) (h : s.refused = some r) : step s = .refused r := by
  have hb : (beginStep s).fault = none := by simp [beginStep, hf]
  have hr : (beginStep s).refused = some r := by simp [beginStep, h]
  simp [step, systemStep, cpuStep, hb, hr, andThen]

end

/-! ### The obligations -/

/-- Settles O28: an illegal byte faults, STOP is refused, and of every other instruction `execSpec` says where it
completes and where it is refused. -/
theorem everyInstructionCompletes : Obligations.EveryInstructionCompletes := by
  intro i s
  cases hi : illegalByte i with
  | some b =>
    obtain ⟨he, hno⟩ := exec_illegal s hi
    simp [he, storesAllowed, hno, isStop_of_illegal hi, eq_comm]
  | none =>
    cases hs : isStop i with
    | true =>
      obtain ⟨he, hno⟩ := exec_isStop s hs
      simp [he, storesAllowed, hno, eq_comm]
    | false =>
      have h := execSpec s hi hs
      refine ⟨fun _ _ hw => h.completes hw, fun f => ⟨fun hf => absurd hf (h.noFault f), ?_⟩,
        fun r => ⟨fun hr => .inr (h.refusal r hr), ?_⟩⟩
      · rintro ⟨b, hb, -⟩
        cases hb
      · rintro (⟨hst, -⟩ | ⟨hw, rfl⟩)
        · cases hst
        · exact h.refused hw

/-- Settles O60, from the state before the PPU's advance (`step_next`): the advance keeps the count and the
setting. -/
theorem everyStep : Obligations.EveryStep := by
  intro s t h
  obtain ⟨hf, hr, u, rfl, hn, hset, hboot⟩ := step_next s h
  obtain ⟨hadv, hmap, hcount⟩ := ppuWrote_setting u (ppuWrote_advance u u.out.cycles)
  obtain ⟨hc, hb, hp, he, hf', hr'⟩ := sameSetting_trans _ hset hadv
  obtain ⟨-, -, -, -, -, -, bmap, -, -, bc, bb, bp, -, bf, br, be, -⟩ := beginStep_keeps s
  rw [hcount, hmap]
  exact ⟨hn.1, hn.2.1, hn.2.2, hc.trans bc, hb.trans bb, hp.trans bp, hf'.trans (bf.trans hf),
    hr'.trans (br.trans hr), fun h0 => hboot (bmap.trans h0), he.trans be⟩

/-- Settles O33: the mark that would be recorded is the one that stands there. -/
theorem marksStick : Obligations.MarksStick := by
  refine fun s => ⟨fun f h => ?_, fun r hf h => ?_⟩
  · have hb : (beginStep s).fault = some f := by simp [beginStep, h]
    have hs := step_of_fault s h
    exact ⟨hs, by rw [settle_fault s hs, ← hb]⟩
  · have hb : (beginStep s).refused = some r := by simp [beginStep, h]
    have hs := step_of_refused s hf h
    exact ⟨hs, by rw [settle_refused s hs, ← hb]⟩

end Sys2Proof.Machine

/-! PROOFS of O58, O30, O37, O44, O48, O49 and O59 (10_state). `step_before_ppu` says once what the CPU's part of a
step keeps and what it does to the execution control; `Inv` after a step and the rise of IME both follow from it. For
the reset states, the audio store is a table laid before the drawn wave table (`audioDrawn`). -/

namespace Sys2Proof.Machine

section

variable (s : State)

/-! ### The execution control in a step -/

/-- What the EI countdown makes of the execution control (R229). -/
def countdown (c : Bool × Nat × Bool × Bool) : Bool × Nat × Bool × Bool :=
  match c with
  | (m, 0, e) => (m, 0, e)
  | (_, 1, e) => (true, 0, e)
  | (m, n + 2, e) => (m, n + 1, e)

theorem ctl_eiCountdown : (eiCountdown s).irq.ctl = countdown s.irq.ctl := by
  unfold eiCountdown
  split <;> next h => simp only [Irq.ctl, h, countdown]

theorem ctl_push16 {v : Word} {t : State} (h : push16 v s = .next t) : t.irq.ctl = s.irq.ctl ∧ t.regs = s.regs := by
  rw [push16_eq] at h
  obtain ⟨u, hu, h⟩ := andThen_eq_next h
  obtain ⟨w, hw, h⟩ := andThen_eq_next h
  cases h
  exact ⟨(ctl_memWrite u hw).trans (ctl_memWrite s hu), (memWrite_keeps u hw).1.1.trans (memWrite_keeps s hu).1.1⟩

/-- R228: servicing clears IME and ends a pending halt bug. -/
theorem ctl_service {t : State} (hp : s.pending ≠ 0) (h : service s = .next t) :
    t.irq.ctl = (false, s.irq.eiDelay, s.irq.halted, false) ∧ t.regs = s.regs := by
  obtain ⟨i, hi⟩ := lowestBit_exists hp
  simp only [service, State.pendingInterrupt, hi] at h
  obtain ⟨u, hu, h⟩ := andThen_eq_next h
  cases h
  obtain ⟨hc, hr⟩ := ctl_push16 _ hu
  simp only [Irq.ctl, Prod.mk.injEq] at hc
  obtain ⟨-, hd, hh, hb⟩ := hc
  exact ⟨by simp only [Irq.ctl, State.cost, State.acknowledge, hd, hh, hb], hr⟩

/-- R232: a fetch ends a pending halt bug. -/
theorem ctl_fetchByte :
    (fetchByte s).2.irq.ctl = (s.irq.ime, s.irq.eiDelay, s.irq.halted, false) ∧
    (fetchByte s).2.regs = s.regs := by
  cases h : s.irq.hbPending with
  | false => simp [fetchByte_eq s h, Irq.ctl, h]
  | true => simp [fetchByte_haltBug s h, Irq.ctl]

theorem ctl_fetchInstr :
    (fetchInstr s).2.irq.ctl = (s.irq.ime, s.irq.eiDelay, s.irq.halted, false) ∧
    (fetchInstr s).2.regs = s.regs := by
  have again : ∀ u : State, (u.irq.ctl = (s.irq.ime, s.irq.eiDelay, s.irq.halted, false) ∧ u.regs = s.regs) →
      (fetchByte u).2.irq.ctl = (s.irq.ime, s.irq.eiDelay, s.irq.halted, false) ∧
      (fetchByte u).2.regs = s.regs := by
    rintro u ⟨hc, hr⟩
    obtain ⟨fc, fr⟩ := ctl_fetchByte u
    simp only [Irq.ctl, Prod.mk.injEq] at hc
    obtain ⟨hm, hd, hh, -⟩ := hc
    exact ⟨by rw [fc, hm, hd, hh], fr.trans hr⟩
  have h1 := ctl_fetchByte s
  have h2 := again _ h1
  unfold fetchInstr
  dsimp only
  split
  · exact h1
  · exact h2
  · exact again _ h2

/-- What an instruction leaves of the control, counted down: RETI sets IME and DI clears it, EI arms the countdown
where none is on, and all else at most halts the CPU or arms the halt bug before the countdown. -/
theorem countdown_controlAfter (i : Instr) {m : Bool} {d : Nat} (h : s.irq.ctl = (m, d, false, false)) :
    (i = .reti ∧ countdown (controlAfter i s) = (true, 0, false, false)) ∨
    (i = .di ∧ countdown (controlAfter i s) = (false, 0, false, false)) ∨
    (m = false ∧ d = 0 ∧ countdown (controlAfter i s) = (false, 1, false, false)) ∨
    ∃ e b, (b = true → s.params.haltBug = true ∧ e = false) ∧
      countdown (controlAfter i s) = countdown (m, d, e, b) := by
  obtain ⟨hm, hd, hh, hb⟩ : s.irq.ime = m ∧ s.irq.eiDelay = d ∧ s.irq.halted = false ∧ s.irq.hbPending = false := by
    simpa [Irq.ctl] using h
  unfold controlAfter
  rw [hm, hd, hh, hb]
  split
  · exact .inl ⟨rfl, rfl⟩
  · exact .inr (.inl ⟨rfl, rfl⟩)
  · split
    · next hc => exact .inr (.inr (.inl ⟨hc.1, hc.2, by rw [hc.1]; rfl⟩))
    · exact .inr (.inr (.inr ⟨false, false, nofun, rfl⟩))
  · split
    · next hc => exact .inr (.inr (.inr ⟨false, true, fun _ => ⟨hc.1, rfl⟩, rfl⟩))
    · exact .inr (.inr (.inr ⟨true, false, nofun, rfl⟩))
  · exact .inr (.inr (.inr ⟨false, false, nofun, by rw [h]⟩))

/-- The state in which a step that performs an instruction fetches it (R93, R231). -/
def fetchState (s : State) : State := { wake (beginStep s) with start := s.pc }

/-- What a step does to the execution control: nothing in the halted state, the clearing of IME when it services an
interrupt, else the fetched instruction's effect and the countdown, the CPU awake and the halt bug over (R220). -/
def stepControl (s : State) (c : Bool × Nat × Bool × Bool) : Prop :=
  (performs s = false ∧ c = s.irq.ctl) ∨
  (performs s = false ∧ s.irq.ime = true ∧ c = (false, s.irq.eiDelay, false, false)) ∨
  ∃ f : State, f.irq.ctl = (s.irq.ime, s.irq.eiDelay, false, false) ∧ f.params = s.params ∧
    c = countdown (controlAfter (fetchInstr (fetchState s)).1 f)

theorem ctl_beginStep : (beginStep s).irq.ctl = s.irq.ctl := by
  obtain ⟨-, -, -, -, -, -, -, -, -, -, -, -, -, -, -, -, -, hi⟩ := beginStep_keeps s
  rw [hi]
  rfl

theorem ctl_fetchState : (fetchState s).irq.ctl = (s.irq.ime, s.irq.eiDelay, false, s.irq.hbPending) := by
  have h := ctl_beginStep s
  simp only [Irq.ctl, Prod.mk.injEq] at h
  obtain ⟨hm, hd, -, hb⟩ := h
  simp only [Irq.ctl, fetchState, wake, hm, hd, hb]

/-- `start` is the CPU step's own; nothing else that `Kept` speaks of depends on it. -/
theorem kept_start {t : State} (x : Word) (h : Kept { s with start := x } t) : Kept { s with start := t.start } t :=
  ⟨h.setting, rfl, h.frame, h.sel, h.fb, h.ram, h.aud, h.display, h.boot⟩

theorem lowZero_of_regs {t : State} (h : t.regs = s.regs) : lowZero s.regs → lowZero t.regs := by
  rw [h]
  exact id

/-- R228: a step that services an interrupt. -/
theorem step_service_effect {u : State} (hp : (beginStep s).pending ≠ 0) (hu : service (wake (beginStep s)) = .next u) :
    Kept (beginStep s) u ∧ (lowZero s.regs → lowZero u.regs) ∧ u.irq.ctl = (false, s.irq.eiDelay, false, false) := by
  obtain ⟨hk, -⟩ := service_next (wake (beginStep s)) hp hu
  obtain ⟨hc, hr⟩ := ctl_service (wake (beginStep s)) hp hu
  have hb := ctl_beginStep s
  simp only [Irq.ctl, Prod.mk.injEq] at hb
  refine ⟨kept_trans _ (kept_irq (beginStep s) _) hk, lowZero_of_regs s (hr.trans (beginStep_keeps s).1), ?_⟩
  rw [hc, ← hb.2.1]
  rfl

/-- R93: a step that performs an instruction. -/
theorem step_perform_effect {v : State} (hv : perform (wake (beginStep s)) = .next v) :
    Kept { beginStep s with start := s.pc } v ∧ (lowZero s.regs → lowZero v.regs) ∧
    ∃ f : State, f.irq.ctl = (s.irq.ime, s.irq.eiDelay, false, false) ∧ f.params = s.params ∧
      v.irq.ctl = controlAfter (fetchInstr (fetchState s)).1 f := by
  obtain ⟨br, -, bpc, -, -, -, -, -, -, -, -, bp, -⟩ := beginStep_keeps s
  have hw : perform (wake (beginStep s)) = exec (fetchInstr (fetchState s)).1 (fetchInstr (fetchState s)).2 := by
    rw [fetchState, ← bpc]
    rfl
  rw [hw] at hv
  obtain ⟨hi, hns⟩ := executes_of_next _ hv
  obtain ⟨-, hk, -, -, hc, hl⟩ := (execSpec _ hi hns).next v hv
  obtain ⟨fc, fr⟩ := ctl_fetchInstr (fetchState s)
  have hf := kept_fetchInstr (fetchState s)
  obtain ⟨-, -, hp, -⟩ := hf.setting
  have hd := ctl_fetchState s
  simp only [Irq.ctl, Prod.mk.injEq] at hd
  obtain ⟨hm, hd, hh, -⟩ := hd
  exact ⟨kept_trans _ (kept_irq { beginStep s with start := s.pc } _) (kept_trans _ hf hk),
    fun h0 => hl (lowZero_of_regs s (fr.trans br) h0), _, by rw [fc, hm, hd, hh], hp.trans bp, hc⟩

/-- R5, R220: a step that answers a next state ends with the PPU's advance from a state `u` that the CPU step left:
what the CPU step keeps, and what it does to the execution control. -/
theorem step_before_ppu {t : State} (h : step s = .next t) :
    ∃ u, t = advance u.out.cycles u ∧ Kept { beginStep s with start := u.start } u ∧
      (lowZero s.regs → lowZero u.regs) ∧ stepControl s u.irq.ctl := by
  obtain ⟨f, -, hst⟩ | ⟨r, -, -, hst⟩ | ⟨-, -, hh, hp, hst⟩ | ⟨-, -, hm, hp, hst⟩ | ⟨-, hst⟩ := step_cases s <;>
    rw [hst] at h
  · cases h
  · cases h
  · cases h
    have hn : performs s = false := by simp [performs, hh, hp]
    exact ⟨(beginStep s).cost 4, rfl, kept_onlyRegisters _ rfl, lowZero_of_regs s (beginStep_keeps s).1,
      .inl ⟨hn, ctl_beginStep s⟩⟩
  · obtain ⟨u, hu, h⟩ := andThen_eq_next h
    cases h
    obtain ⟨hk, hl, hc⟩ := step_service_effect s hp hu
    have hn : performs s = false := by
      simp only [performs, hm, decide_eq_true hp, Bool.and_self, Bool.not_true, Bool.and_false]
    exact ⟨u, rfl, kept_start _ _ hk, hl, .inr (.inl ⟨hn, hm, hc⟩)⟩
  · obtain ⟨v, hv, h⟩ := andThen_eq_next h
    cases h
    obtain ⟨hk, hl, f, hf, hp, hc⟩ := step_perform_effect s hv
    obtain ⟨er, -, -, -, -, -, -, -, -, -, -, -, -, -, -, -, eo⟩ := eiCountdown_keeps v
    exact ⟨eiCountdown v, by rw [eo], kept_start _ _ (kept_trans _ hk (kept_eiCountdown v)),
      fun h0 => lowZero_of_regs v er (hl h0), .inr (.inr ⟨f, hf, hp, by rw [ctl_eiCountdown, hc]⟩)⟩

theorem ctl_advance (n : Nat) : (advance n s).irq.ctl = s.irq.ctl := by
  rw [ppuWrote_advance s n]
  rfl

/-! ### The invariant -/

/-- The execution control between steps (R31, R229, R232): `Inv`'s last four parts. -/
def controlOk (haltBug : Bool) (c : Bool × Nat × Bool × Bool) : Prop :=
  match c with
  | (m, d, e, b) => d ≤ 1 ∧ (d ≠ 0 → m = false) ∧ (e = true → d = 0) ∧ (b = true → haltBug = true ∧ e = false)

theorem Inv.control {s : State} (h : Inv s) : controlOk s.params.haltBug s.irq.ctl :=
  ⟨h.eiDelay, h.eiPending, h.haltCounted, h.haltBug⟩

/-- The invariant is kept by whatever keeps what no instruction breaks, F's low nibble and the control. -/
theorem inv_of_kept {t : State} (h : Inv s) (hk : Kept s t) (hl : lowZero t.regs)
    (hc : controlOk s.params.haltBug t.irq.ctl) : Inv t := by
  obtain ⟨hcart, hboot, hparams, -⟩ := hk.setting
  obtain ⟨hpos, hlyc⟩ := hk.display ⟨h.position, h.lycCompared⟩
  obtain ⟨hle, hoff, hcounted, hbug⟩ := hc
  exact ⟨hl, hk.ram h.ram, hk.aud h.aud, hcart ▸ h.cart, hboot ▸ h.boot, hk.fb ▸ h.frame, hpos, hlyc,
    hk.sel ▸ h.selected, hle, hoff, hcounted, hparams ▸ hbug⟩

/-- R241: the start of a step keeps the invariant. -/
theorem inv_beginStep (x : Word) (h : Inv s) : Inv { beginStep s with start := x } := by
  obtain ⟨br, -, -, -, bppu, -, -, bm, ba, bc, bb, bp, -, -, -, -, -, bi⟩ := beginStep_keeps s
  refine ⟨br ▸ h.flagsLow, ?_, ba ▸ h.aud, bc ▸ h.cart, bb ▸ h.boot, bppu ▸ h.frame, bppu ▸ h.position,
    bppu ▸ h.lycCompared, bppu ▸ h.selected, bi ▸ h.eiDelay, bi ▸ h.eiPending, bi ▸ h.haltCounted, ?_⟩
  · rw [bc, bm]
    exact h.ram
  · rw [bp, bi]
    exact h.haltBug

/-- R246, R249, R251, R252: a tick of the PPU keeps the invariant. -/
theorem inv_tick (h : Inv s) : Inv (tick s) := by
  have hw := ppuWrote_tick s
  refine ⟨?_, ?_, ?_, ?_, ?_, tick_frame s h.frame, tick_position s h.position, tick_lycEq s h.lycCompared,
    tick_selected s h.selected, ?_, ?_, ?_, ?_⟩ <;> rw [hw]
  exacts [h.flagsLow, h.ram, h.aud, h.cart, h.boot, h.eiDelay, h.eiPending, h.haltCounted, h.haltBug]

/-- R29, R31, R229: a step keeps the execution control in order. -/
theorem controlOk_step {c : Bool × Nat × Bool × Bool} (h : controlOk s.params.haltBug s.irq.ctl)
    (hs : stepControl s c) : controlOk s.params.haltBug c := by
  obtain ⟨-, rfl⟩ | ⟨-, -, rfl⟩ | ⟨f, hf, hp, rfl⟩ := hs
  · exact h
  · obtain ⟨h1, -⟩ := h
    exact ⟨h1, fun _ => rfl, nofun, nofun⟩
  · obtain ⟨h1, -⟩ := h
    obtain ⟨-, hc⟩ | ⟨-, hc⟩ | ⟨-, -, hc⟩ | ⟨e, b, hb, hc⟩ :=
      countdown_controlAfter f (fetchInstr (fetchState s)).1 hf <;> rw [hc]
    · exact ⟨by decide, nofun, nofun, nofun⟩
    · exact ⟨by decide, nofun, nofun, nofun⟩
    · exact ⟨by decide, fun _ => rfl, nofun, nofun⟩
    · obtain hd | hd : s.irq.eiDelay = 0 ∨ s.irq.eiDelay = 1 := Nat.le_one_iff_eq_zero_or_eq_one.mp h1 <;> rw [hd]
      · exact ⟨by decide, nofun, fun _ => rfl, hp ▸ hb⟩
      · exact ⟨by decide, nofun, fun _ => rfl, hp ▸ hb⟩

variable {c : Bool × Nat × Bool × Bool}

/-- R29, R225, R229: IME rises where the countdown stood at 1, or by RETI. -/
theorem ime_rises (hle : s.irq.eiDelay ≤ 1) (hoff : s.irq.ime = false) (hc : stepControl s c) (hon : c.1 = true) :
    s.irq.eiDelay = 1 ∨ (fetchInstr (fetchState s)).1 = .reti := by
  obtain ⟨-, rfl⟩ | ⟨-, hm, -⟩ | ⟨f, hf, -, rfl⟩ := hc
  · exact absurd (hon.symm.trans hoff) (by decide)
  · exact absurd (hm.symm.trans hoff) (by decide)
  · obtain ⟨hi, -⟩ | ⟨-, hd⟩ | ⟨-, -, hd⟩ | ⟨e, b, -, hd⟩ := countdown_controlAfter f _ hf
    · exact .inr hi
    · cases (congrArg Prod.fst hd).symm.trans hon
    · cases (congrArg Prod.fst hd).symm.trans hon
    · obtain h0 | h1 := Nat.le_one_iff_eq_zero_or_eq_one.mp hle
      · rw [hoff, h0] at hd
        cases (congrArg Prod.fst hd).symm.trans hon
      · exact .inl h1

/-- R213, R229: a countdown at 1 ends with IME set, whatever instruction but DI is performed. -/
theorem countdown_ends (hp : performs s = true) (h1 : s.irq.eiDelay = 1)
    (hdi : (fetchInstr (fetchState s)).1 ≠ .di) (hc : stepControl s c) : c.1 = true ∧ c.2.1 = 0 := by
  obtain ⟨hn, -⟩ | ⟨hn, -⟩ | ⟨f, hf, -, rfl⟩ := hc
  · cases hn.symm.trans hp
  · cases hn.symm.trans hp
  · obtain ⟨-, hd⟩ | ⟨hi, -⟩ | ⟨-, h0, -⟩ | ⟨e, b, -, hd⟩ :=
      countdown_controlAfter f (fetchInstr (fetchState s)).1 hf
    · rw [hd]
      exact ⟨rfl, rfl⟩
    · exact absurd hi hdi
    · cases h0.symm.trans h1
    · rw [hd, h1]
      exact ⟨rfl, rfl⟩

/-! ### The I/O registers (20_memory) -/

theorem memWrite_io {a : Word} (v : Byte) (h : regionOf a = .io) : memWrite a v s = writeIo a v s := by
  simp only [memWrite, h]

theorem readByte_io {a : Word} (h : regionOf a = .io) : s.readByte a = s.readIo a := by
  simp only [State.readByte, h]

/-- R61: an audio address lies in the I/O window and names the audio store. -/
theorem audio_address {a : Word} (h : isAudioAddr a.toNat = true) : regionOf a = .io ∧ ioRegOf a = .audio := by
  have hn := h
  simp only [isAudioAddr, decide_eq_true_eq] at hn
  have hx : isExtAddr a.toNat = false := by simp only [isExtAddr, decide_eq_false_iff_not]; omega
  constructor
  · unfold regionOf
    repeat rw [if_neg (by omega)]
    rw [if_pos (by omega)]
  · unfold ioRegOf
    simp only [hx, h, Bool.false_eq_true, if_false, if_true]
    rw [if_neg (by omega)]

/-- R33: three ones above the five storage bits. -/
theorem ifByte_eq (v : Byte) : 0b111#3 ++ v.extractLsb' 0 5 = 0xE0#8 ||| v := by
  revert v
  decide +kernel

/-- R36: the bits of STAT: a one, `stat_en`, `lyc_eq` and the mode. -/
theorem stat_bits (p : Ppu) :
    p.stat.getLsbD 7 = true ∧ (∀ k, 3 ≤ k → k < 7 → p.stat.getLsbD k = p.statEn.getLsbD (k - 3)) ∧
    p.stat.getLsbD 2 = p.lycEq ∧ p.stat.toNat % 4 = p.mode.code.toNat := by
  unfold Ppu.stat
  generalize p.statEn = e
  generalize p.lycEq = q
  generalize p.mode.code = m
  revert e q m
  decide +kernel

/-! ### The reset states (R46, R47) -/

section
variable {α : Type} (d : α)

/-- A store laid before another answers first. -/
theorem readCells_append (m r : List (Nat × α)) (k : Nat) :
    readCells d (m ++ r) k = readCells (readCells d r k) m k := by
  induction m with
  | nil => rfl
  | cons x m ih =>
    obtain ⟨j, v⟩ := x
    simp only [List.cons_append, readCells, ih]

/-- A store cut down to some keys reads as before at those and as unlisted elsewhere. -/
theorem readCells_filter (p : Nat → Bool) (m : List (Nat × α)) (k : Nat) :
    readCells d (m.filter fun c => p c.1) k = if p k = true then readCells d m k else d := by
  induction m with
  | nil => simp [readCells]
  | cons x m ih =>
    obtain ⟨j, v⟩ := x
    by_cases hj : j = k
    · subst hj
      cases hp : p j <;> simp_all [readCells]
    · cases hp : p j <;> simp [readCells, hp, hj, ih]

/-- A store that does not list `k` reads there as unlisted. -/
theorem readCells_unlisted {m : List (Nat × α)} {k : Nat} (h : ∀ c ∈ m, c.1 ≠ k) : readCells d m k = d := by
  induction m with
  | nil => rfl
  | cons x m ih =>
    obtain ⟨j, v⟩ := x
    simp only [List.forall_mem_cons] at h
    rw [readCells, if_neg h.1, ih h.2]

variable [DecidableEq α]

/-- Cutting a canonical store down to the keys from `n` upward leaves one that is canonical from `n`. -/
theorem filter_wfFrom {lo n : Nat} {m : List (Nat × α)} (h : cellsWfFrom d lo m = true) :
    cellsWfFrom d (max lo n) (m.filter fun c => decide (n ≤ c.1)) = true := by
  induction m generalizing lo with
  | nil => rfl
  | cons x m ih =>
    obtain ⟨j, v⟩ := x
    simp only [cellsWfFrom, Bool.and_eq_true, decide_eq_true_eq] at h
    obtain ⟨⟨hj, hv⟩, hm⟩ := h
    have hr := ih hm
    by_cases hn : n ≤ j
    · rw [Nat.max_eq_left (by omega)] at hr
      rw [List.filter_cons_of_pos (by simpa using hn)]
      simp only [cellsWfFrom, Bool.and_eq_true, decide_eq_true_eq]
      exact ⟨⟨by omega, hv⟩, hr⟩
    · rw [List.filter_cons_of_neg (by simpa using hn)]
      exact writeCells_wfFrom.cellsWfFrom_mono (lo := 0) (k := 0) d hr (by omega)

/-- A canonical store before one that is canonical from past its keys. -/
theorem append_wfFrom {lo hi : Nat} {m r : List (Nat × α)} (hm : cellsWfFrom d lo m = true)
    (hk : ∀ c ∈ m, c.1 < hi) (hlo : lo ≤ hi) (hr : cellsWfFrom d hi r = true) :
    cellsWfFrom d lo (m ++ r) = true := by
  induction m generalizing lo with
  | nil => exact writeCells_wfFrom.cellsWfFrom_mono (lo := 0) (k := 0) d hr hlo
  | cons x m ih =>
    obtain ⟨j, v⟩ := x
    simp only [List.forall_mem_cons] at hk
    simp only [List.cons_append, cellsWfFrom, Bool.and_eq_true] at hm ⊢
    exact ⟨hm.1, ih hm.2 hk.2 hk.1⟩

end

/-- The audio store after reset without a boot image (R46): the control registers of the table, then the drawn wave
table. -/
def audioDrawn (r : List Host.Cell) : List Host.Cell := audioReset ++ r.filter fun c => decide (0xFF30 ≤ c.1)

theorem readCells_audioDrawn (r : List Host.Cell) (k : Nat) :
    readCells 0#8 (audioDrawn r) k = readCells (if 0xFF30 ≤ k then readCells 0#8 r k else 0#8) audioReset k := by
  rw [audioDrawn, readCells_append, readCells_filter _ (fun j => decide (0xFF30 ≤ j))]
  simp only [decide_eq_true_eq]

theorem audioReset_below : ∀ c ∈ audioReset, c.1 < 0xFF30 := by decide

/-- R46: the wave table is the draw. -/
theorem readCells_waveTable (r : List Host.Cell) {k : Nat} (h : 0xFF30 ≤ k) :
    readCells 0#8 (audioDrawn r) k = readCells 0#8 r k := by
  rw [readCells_audioDrawn, if_pos h]
  exact readCells_unlisted _ fun c hc hk => absurd (audioReset_below c hc) (by omega)

/-- R46: the audio control registers do not depend on the draw. -/
theorem readCells_audioControl (r : List Host.Cell) {k : Nat} (h : k < 0xFF30) :
    readCells 0#8 (audioDrawn r) k = readCells 0#8 audioReset k := by
  rw [readCells_audioDrawn, if_neg (by omega)]

theorem audWf_audioDrawn {r : List Host.Cell} (h : audWf r = true) : audWf (audioDrawn r) = true := by
  simp only [audWf, Bool.and_eq_true] at h ⊢
  obtain ⟨hr, ha⟩ := h
  refine ⟨append_wfFrom _ (hi := 0xFF30) (by decide) audioReset_below (by decide) (filter_wfFrom _ (lo := 0) hr), ?_⟩
  rw [audioDrawn, List.all_append, Bool.and_eq_true]
  exact ⟨by decide, List.all_eq_true.mpr fun c hc => List.all_eq_true.mp ha c (List.mem_of_mem_filter hc)⟩

theorem readByte_audio {a : Word} (h : isAudioAddr a.toNat = true) : s.readByte a = readCells 0#8 s.aud a.toNat := by
  obtain ⟨hr, hi⟩ := audio_address h
  simp only [readByte_io s hr, State.readIo, hi]
  rfl

/-- R46: the audio control registers read as the table of `audioReset`, the ones it leaves out as 0x00. -/
theorem readByte_audioControl (u : Setup) {table : List (Word × Byte)}
    (h : (table.all fun p => isAudioAddr p.1.toNat && decide (p.1.toNat < 0xFF30) &&
      decide (readCells 0#8 audioReset p.1.toNat = p.2)) = true) :
    ∀ p ∈ table, (State.resetNoBoot u).readByte p.1 = p.2 := by
  intro p hp
  have hp := List.all_eq_true.mp h p hp
  simp only [Bool.and_eq_true, decide_eq_true_eq] at hp
  obtain ⟨⟨ha, hk⟩, hv⟩ := hp
  rw [readByte_audio _ ha]
  exact (readCells_audioControl u.draws.aud hk).trans hv

theorem resetWith_noBoot {u : Setup} (h : u.boot = none) : State.resetWith u = State.resetNoBoot u := by
  rw [State.resetWith, h]

theorem resetWith_boot {u : Setup} {img : List Host.Cell} (h : u.boot = some img) :
    State.resetWith u = State.resetBoot u img := by
  rw [State.resetWith, h]

theorem inv_resetNoBoot (u : Setup) (hc : u.cart.wf = true) (hd : PowerOn.wf u.cart u.draws = true) :
    Inv (State.resetNoBoot u) := by
  simp only [PowerOn.wf, Bool.and_eq_true] at hd
  obtain ⟨⟨hm, ha⟩, hf⟩ := hd
  have hflags : 0xB0#8 &&& 0x0F#8 = 0#8 := by decide
  have hpos : (State.resetNoBoot u).ppu.positionOk = true := by simp [State.resetNoBoot, Ppu.positionOk, modeAt]
  exact ⟨hflags, hm, audWf_audioDrawn ha, hc, rfl, hf, hpos, rfl, ⟨Nat.zero_le _, .nil, nofun⟩, Nat.zero_le _, nofun,
    nofun, nofun⟩

theorem inv_resetBoot (u : Setup) {img : List Host.Cell} (hc : u.cart.wf = true)
    (hd : PowerOn.wf u.cart u.draws = true) (hi : bootWf img = true) : Inv (State.resetBoot u img) := by
  simp only [PowerOn.wf, Bool.and_eq_true] at hd
  obtain ⟨⟨hm, ha⟩, hf⟩ := hd
  have hflags : (u.draws.regs.f &&& 0xF0#8) &&& 0x0F#8 = 0#8 := (BitVec.and_assoc ..).trans BitVec.and_zero
  have hpos : (State.resetBoot u img).ppu.positionOk = true := by simp [State.resetBoot, Ppu.positionOk]
  exact ⟨hflags, hm, ha, hc, hi, hf, hpos, rfl, ⟨Nat.zero_le _, .nil, nofun⟩, Nat.zero_le _, nofun, nofun, nofun⟩

end

/-! ### The obligations -/

/-- Settles O58: the requests at the start, the CPU step (`step_before_ppu`) and each tick of the PPU keep `Inv`. -/
theorem stepKeepsInv : Obligations.StepKeepsInv := by
  intro s t h hst
  obtain ⟨u, rfl, hk, hl, hc⟩ := step_before_ppu s hst
  obtain ⟨-, -, -, -, -, -, -, -, -, -, -, bp, -⟩ := beginStep_keeps s
  have hu : Inv u := inv_of_kept _ (inv_beginStep s u.start h) hk (hl h.flagsLow) (bp ▸ controlOk_step s h.control hc)
  exact advance_induction u inv_tick u.out.cycles hu

/-- Settles O30: `execSpec` says it of every instruction that completes. -/
theorem instructionFrame : Obligations.InstructionFrame := by
  intro i s t h
  obtain ⟨hi, hs⟩ := executes_of_next s h
  obtain ⟨hm, hk, hq, -⟩ := (execSpec s hi hs).next t h
  exact ⟨hm, hk.setting, hk.start, hk.frame, hk.sel, hk.fb, hq⟩

/-- Settles O37, from what a step does to the execution control (`stepControl`); the invariant bounds the
countdown. -/
theorem masterEnable : Obligations.MasterEnable := by
  intro s t h hst
  obtain ⟨u, rfl, -, -, hc⟩ := step_before_ppu s hst
  rw [← ctl_advance u u.out.cycles] at hc
  exact ⟨fun hoff hon => ime_rises s h.eiDelay hoff hc hon, fun hp h1 hdi => countdown_ends s hp h1 hdi hc⟩

/-- Settles O44: each register by its own address of the I/O window, STAT by its bits (`stat_bits`), the audio store by
its canonical form. -/
theorem registerReadback : Obligations.RegisterReadback := by
  intro s v
  refine ⟨⟨_, rfl, ifByte_eq v⟩, ⟨_, rfl, rfl⟩, ?_, fun a ha hm => ?_, ?_, ?_, rfl, rfl⟩
  · intro a ha
    fin_cases ha
    · exact ⟨_, rfl, (writeLcdc_keeps s.ppu v).1⟩
    all_goals exact ⟨_, rfl, rfl⟩
  · obtain ⟨hr, hi⟩ := audio_address ha
    refine ⟨{ s with aud := writeCells unlistedByte s.aud a.toNat v }, ?_, ?_, rfl⟩
    · simp only [memWrite_io s v hr, writeIo, hi]
    · simp only [readByte_io _ hr, State.readIo, hi]
      exact readCells_writeCells_same _ hm _ v
  · refine ⟨if v = 0#8 then s else { s with bootMapped := false }, rfl, ?_, ?_⟩ <;> split
    · rfl
    · rfl
    · next hv => simp [hv]
    · next hv => simp [hv]
  · obtain ⟨h7, hk, h2, hm⟩ := stat_bits { s.ppu with statEn := v.extractLsb' 3 4 }
    refine ⟨_, rfl, h7, fun k h3 h6 => (hk k h3 h6).trans ?_, h2, hm.trans ?_, rfl⟩
    · rw [BitVec.getLsbD_extractLsb', decide_eq_true (by omega), Bool.true_and]
      congr 1
      omega
    · cases s.ppu.mode <;> rfl

/-- Settles O48: the values of the table; the audio store is the table's control registers before the drawn wave
table. -/
theorem resetWithoutBoot : Obligations.ResetWithoutBoot := by
  intro u hu
  have hflags : Flags.ofByte 0xB0#8 = { z := true, n := false, h := true, c := true } := by decide
  have hif : 0b111#3 ++ 0b00001#5 = 0xE1#8 := by decide
  have hstat : 1#1 ++ 0#4 ++ BitVec.ofBool true ++ PpuMode.oamScan.code = 0x86#8 := by decide
  rw [resetWith_noBoot hu]
  exact ⟨rfl, hflags, rfl, rfl, rfl, rfl, rfl, rfl, rfl, rfl, rfl, rfl, rfl, rfl, rfl, rfl, rfl, rfl,
    fun i _ => readCells_waveTable _ (Nat.le_add_right _ i), hif, rfl, hstat, rfl, rfl, rfl, rfl, rfl, rfl, rfl,
    readByte_audioControl u (by decide)⟩

/-- Settles O49: each field of `State.resetBoot` is the one that R47 names. -/
theorem resetWithBoot : Obligations.ResetWithBoot := by
  intro u img hu
  rw [resetWith_boot hu]
  and_intros <;> rfl

/-- Settles O59: both reset states meet the invariant (`inv_resetNoBoot`, `inv_resetBoot`). -/
theorem resetInv : Obligations.ResetInv := by
  intro u hu
  simp only [Setup.wf, Bool.and_eq_true] at hu
  obtain ⟨⟨hc, hd⟩, hb⟩ := hu
  cases h : u.boot with
  | none => exact resetWith_noBoot h ▸ inv_resetNoBoot u hc hd
  | some img =>
    rw [h] at hb
    exact resetWith_boot h ▸ inv_resetBoot u hc hd hb

end Sys2Proof.Machine

/-! PROOFS of O39, O42, O43, O46, O53, O38, O40, O41 and O47 (20_memory). What each row of the address space gives is
said once, by the row that an address selects (`regionOf_of_bounds`). The instant DMA is taken apart at one byte
(`dmaCopy_byte`): what it stores is a read after the bytes before it, and no byte before it was that read's own. -/

namespace Sys2Proof.Machine

section

variable (s : State)

/-! ### The rows of the address space (R51, R59) -/

/-- R51: the rows of the dispatcher's table do not overlap. -/
theorem regions_disjoint (q r : Region) : q = r ∨ regionHigh q ≤ regionLow r ∨ regionHigh r ≤ regionLow q := by
  cases q <;> cases r <;> decide

/-- R51: an address selects the row it lies in. -/
theorem regionOf_of_bounds {a : Word} {r : Region} (hl : regionLow r ≤ a.toNat) (hh : a.toNat < regionHigh r) :
    regionOf a = r := by
  obtain ⟨bl, bh⟩ := region_bounds a
  obtain h | h | h := regions_disjoint (regionOf a) r
  · exact h
  all_goals omega

/-- R59, R68: the addresses of the I/O window that no register has. -/
theorem ioRegOf_unused {a : Word}
    (h : a.toNat = 0xFF03 ∨ (0xFF08 ≤ a.toNat ∧ a.toNat ≤ 0xFF0E) ∨ a.toNat = 0xFF15 ∨ a.toNat = 0xFF1F ∨
      (0xFF27 ≤ a.toNat ∧ a.toNat ≤ 0xFF2F) ∨ (0xFF4C ≤ a.toNat ∧ a.toNat ≤ 0xFF4F) ∨
      (0xFF51 ≤ a.toNat ∧ a.toNat ≤ 0xFF7F)) : ioRegOf a = .unused := by
  have hx : isExtAddr a.toNat = false := by simp only [isExtAddr, decide_eq_false_iff_not]; omega
  have ha : isAudioAddr a.toNat = false := by simp only [isAudioAddr, decide_eq_false_iff_not]; omega
  unfold ioRegOf
  simp only [hx, ha, Bool.false_eq_true, if_false]
  repeat rw [if_neg (by omega)]

/-! ### The cartridge's ROM and the boot image (R52, R53, R57, R65) -/

theorem readByte_boot {a : Word} (h : a.toNat < 0x100) (hb : s.bootMapped = true) :
    s.readByte a = readCells 0xFF#8 s.boot a.toNat := by
  simp only [State.readByte, region_boot h, hb, h, decide_true, Bool.and_self, if_true]
  rfl

theorem readByte_romFixed {a : Word} (h : a.toNat < 0x4000) (hb : ¬(s.bootMapped = true ∧ a.toNat < 0x100)) :
    s.readByte a = readCells 0xFF#8 s.cart.image (s.bank0000 * 0x4000 + a.toNat) := by
  have hr : regionOf a = .romFixed := regionOf_of_bounds (Nat.zero_le _) h
  simp only [State.readByte, hr, Bool.and_eq_true, decide_eq_true_eq, if_neg hb]
  rfl

theorem readByte_romSwitch {a : Word} (hl : 0x4000 ≤ a.toNat) (hh : a.toNat < 0x8000) :
    s.readByte a = readCells 0xFF#8 s.cart.image (s.bank4000 * 0x4000 + (a.toNat - 0x4000)) := by
  have hr : regionOf a = .romSwitch := regionOf_of_bounds hl hh
  simp only [State.readByte, hr]
  rfl

/-- R66: the mapper is MBC1 on every cartridge that is not ROM only. -/
theorem isMbc1_eq (c : Cartridge) : c.isMbc1 = decide (c.kind ≠ .romOnly) := by
  unfold Cartridge.isMbc1
  cases c.kind <;> rfl

/-! ### The banks (R64, R66) -/

theorem romBanks_eq (c : Cartridge) : c.romBanks = 2 * 2 ^ c.romCode.val := Nat.shiftLeft_eq ..

theorem ramSize_eq (c : Cartridge) :
    c.ramSize = if c.kind = .romOnly ∨ c.kind = .mbc1 then 0
      else [0, 0x800, 0x2000, 0x8000, 0x20000, 0x10000].getD c.ramCode.val 0 := by
  have hcode : ∀ k : Fin 6, ramBytesOfCode k =
      [0, 0x800, 0x2000, 0x8000, 0x20000, 0x10000].getD k.val 0 := by decide
  unfold Cartridge.ramSize
  cases c.kind <;> simp [hcode]

theorem ramBanks_eq (c : Cartridge) :
    c.ramBanks = if c.ramSize < 0x2000 then 1 else c.ramSize / 0x2000 := by
  unfold Cartridge.ramBanks
  split <;> omega

/-- R64: a fitted index lies inside the count. -/
theorem fitBank_lt (p : BankOor) (b : Nat) {n : Nat} (h : 0 < n) : fitBank p b n < n := by
  unfold fitBank
  split
  · assumption
  · cases p with
    | wrap => exact Nat.mod_lt b h
    | saturate => exact Nat.sub_lt h Nat.one_pos

theorem romBanks_pos (c : Cartridge) : 0 < c.romBanks := by
  rw [romBanks_eq]
  exact Nat.mul_pos Nat.two_pos (Nat.two_pow_pos _)

theorem ramBanks_pos (c : Cartridge) : 0 < c.ramBanks := Nat.le_max_left ..

/-- R64: the register value 0 selects as 1. -/
theorem raw4000_eq (m : MapperState) :
    m.raw4000 = 32 * m.bankHi.toNat + if m.romBankLo.toNat = 0 then 1 else m.romBankLo.toNat := by
  have h0 : m.romBankLo = 0 ↔ m.romBankLo.toNat = 0 := BitVec.toNat_eq
  simp only [MapperState.raw4000, MapperState.lo5, h0, Nat.mul_comm]

/-- R65: a ROM-only cartridge has banks 0 and 1. -/
theorem banks_romOnly (h : s.cart.kind = .romOnly) : s.bank0000 = 0 ∧ s.bank4000 = 1 := by
  simp [State.bank0000, State.bank4000, isMbc1_eq, h]

theorem banks_mbc1 (h : s.cart.kind ≠ .romOnly) :
    s.bank4000 = fitBank s.params.bankOor s.mapper.raw4000 s.cart.romBanks ∧
    s.bank0000 = fitBank s.params.bankOor s.mapper.raw0000 s.cart.romBanks ∧
    s.ramBank = fitBank s.params.bankOor s.mapper.rawRam s.cart.ramBanks := by
  simp [State.bank4000, State.bank0000, State.ramBank, isMbc1_eq, h]

/-! ### The mapper's control writes (R63) -/

theorem memWrite_rom {a : Word} (v : Byte) (h : a.toNat < 0x8000) : memWrite a v s = .next (mapperWrite a v s) := by
  obtain hr | hr : regionOf a = .romFixed ∨ regionOf a = .romSwitch := by
    by_cases h4 : a.toNat < 0x4000
    · exact .inl (regionOf_of_bounds (Nat.zero_le _) h4)
    · exact .inr (regionOf_of_bounds (Nat.le_of_not_lt h4) h)
  all_goals simp only [memWrite, hr]

section

variable (m : MapperState) (a : Word) (v : Byte)

/-- Each mapper register is written at its own range of addresses. -/
theorem control_eq :
    m.control a v =
      { ramEnable := if a.toNat < 0x2000 then decide (v.extractLsb' 0 4 = 0xA#4) else m.ramEnable
        romBankLo := if 0x2000 ≤ a.toNat ∧ a.toNat < 0x4000 then v.extractLsb' 0 5 else m.romBankLo
        bankHi := if 0x4000 ≤ a.toNat ∧ a.toNat < 0x6000 then v.extractLsb' 0 2 else m.bankHi
        bankMode := if 0x6000 ≤ a.toNat then v.getLsbD 0 else m.bankMode } := by
  obtain h | h | h | h : a.toNat < 0x2000 ∨ (0x2000 ≤ a.toNat ∧ a.toNat < 0x4000) ∨
      (0x4000 ≤ a.toNat ∧ a.toNat < 0x6000) ∨ 0x6000 ≤ a.toNat := by omega
  all_goals simp (disch := omega) only [MapperState.control, if_pos, if_neg]

theorem control_ramEnable :
    (m.control a v).ramEnable = if a.toNat < 0x2000 then decide (v.toNat % 16 = 0xA) else m.ramEnable := by
  simp [control_eq, BitVec.toNat_eq]

theorem control_romBankLo :
    (m.control a v).romBankLo.toNat =
      if 0x2000 ≤ a.toNat ∧ a.toNat < 0x4000 then v.toNat % 32 else m.romBankLo.toNat := by
  simp [control_eq, apply_ite BitVec.toNat]

theorem control_bankHi :
    (m.control a v).bankHi.toNat =
      if 0x4000 ≤ a.toNat ∧ a.toNat < 0x6000 then v.toNat % 4 else m.bankHi.toNat := by
  simp [control_eq, apply_ite BitVec.toNat]

theorem control_bankMode :
    (m.control a v).bankMode = if 0x6000 ≤ a.toNat then v.getLsbD 0 else m.bankMode := by
  rw [control_eq]

/-- R64: the reports of a mapper state name its three indexes, each where it is out of range. -/
theorem mem_bankReports {c : Cartridge} {r : Report} :
    r ∈ c.bankReports m ↔
      (r = .bankOutOfRange m.raw4000 ∧ c.romBanks ≤ m.raw4000) ∨
      (r = .bankOutOfRange m.raw0000 ∧ c.romBanks ≤ m.raw0000) ∨
      (r = .bankOutOfRange m.rawRam ∧ 0 < c.ramSize ∧ c.ramBanks ≤ m.rawRam) := by
  simp only [Cartridge.bankReports, List.mem_append, List.mem_ite_nil_right, List.mem_singleton, or_assoc, and_comm]

end

/-! ### RAM behind an address (R54 to R56) -/

/-- R54, R55, R56, R58, R67: what every read gives after a store to a byte of RAM. -/
theorem readByte_putRam {k : Nat} (v : Byte) (hm : Memory.wf s.mem = true) (b : Word) :
    (s.putRam k v).readByte b = if s.ramKey b = some k then v else s.readByte b := by
  split
  · next h => exact readByte_putRam_same s v hm h
  · next h => exact readByte_putRam_other s v h

theorem ramKey_workRam {a : Word} (hl : 0xC000 ≤ a.toNat) (hh : a.toNat < 0xDE00) : s.ramKey a = some a.toNat := by
  have hr : regionOf a = .workRam := regionOf_of_bounds hl (by simp only [regionHigh]; omega)
  simp only [State.ramKey, hr]

/-- R56: the byte of the echo range is the one of work RAM. -/
theorem ramKey_echo {a : Word} (hl : 0xC000 ≤ a.toNat) (hh : a.toNat < 0xDE00) :
    s.ramKey (a + 0x2000#16) = some a.toNat := by
  have hn : (a + 0x2000#16).toNat = a.toNat + 0x2000 := by rw [BitVec.toNat_add, BitVec.toNat_ofNat]; omega
  have hr : regionOf (a + 0x2000#16) = .echo :=
    regionOf_of_bounds (by simp only [regionLow]; omega) (by simp only [regionHigh]; omega)
  simp only [State.ramKey, hr, hn, Nat.add_sub_cancel]

/-! ### The external-RAM window (R55, R64) -/

theorem extRamOpen_iff : s.extRamOpen = true ↔ s.mapper.ramEnable = true ∧ 0 < s.cart.ramSize := by
  simp only [State.extRamOpen, Bool.and_eq_true, decide_eq_true_eq]

theorem extRam_open {a : Word} (hr : regionOf a = .extRam) (ho : s.extRamOpen = true) :
    s.readByte a = s.ram (s.extRamKey a) ∧ s.noteRead a = s := by
  simp only [State.readByte, State.noteRead, hr, ho, if_true, and_self]

/-! ### Unmapped accesses (R55, R58, R68) -/

/-- An unmapped access: the read gives 0xFF, the write does nothing, and each makes its report. -/
def unmappedAt (s : State) (a : Word) : Prop :=
  s.readByte a = 0xFF ∧ s.noteRead a = s.report [.unmappedRead a] ∧
  ∀ v, memWrite a v s = .next (s.report [.unmappedWrite a])

theorem unmappedAt_extRam {a : Word} (hr : regionOf a = .extRam) (ho : s.extRamOpen = false) : unmappedAt s a := by
  simp only [unmappedAt, State.readByte, State.noteRead, memWrite, hr, ho, Bool.false_eq_true, if_false, and_self,
    implies_true]

theorem unmappedAt_reserved {a : Word} (hr : regionOf a = .reserved) : unmappedAt s a := by
  simp only [unmappedAt, State.readByte, State.noteRead, memWrite, hr, and_self, implies_true]

theorem unmappedAt_unused {a : Word} (hr : regionOf a = .io) (hi : ioRegOf a = .unused) : unmappedAt s a := by
  simp only [unmappedAt, State.readByte, State.readIo, State.noteRead, memWrite, writeIo, hr, hi, and_self,
    implies_true]

/-! ### The external device registers (R60) -/

theorem external_access {a : Word} (h : isExternal a = true) :
    s.readByte a = Config.extAnswer s.extHistory a ∧
    s.noteRead a = { s with extHistory := s.extHistory ++ [.read a] } ∧
    ∀ v, memWrite a v s = .next { s with extHistory := s.extHistory ++ [.write a v] } := by
  have hr := isExternal_region h
  have hi := (ioRegOf_ext a).mpr h
  simp only [State.readByte, State.readIo, State.noteRead, memWrite, writeIo, hr, hi, and_self, implies_true]

/-- R69: a read changes the history of the devices and the reports, and nothing else. -/
theorem noteRead_frame (a : Word) :
    s.noteRead a = { s with extHistory := (s.noteRead a).extHistory,
                            out := { s.out with reports := (s.noteRead a).out.reports } } := by
  unfold State.noteRead
  cases regionOf a
  case extRam => cases s.extRamOpen <;> rfl
  case io => cases ioRegOf a <;> rfl
  all_goals rfl

/-- R60: a read is recorded exactly at an external device register. -/
theorem extHistory_noteRead (a : Word) :
    (s.noteRead a).extHistory = s.extHistory ++ ([a].filter isExternal).map .read := by
  cases hx : isExternal a with
  | true =>
    obtain ⟨-, hn, -⟩ := external_access s hx
    rw [hn]
    simp [hx]
  | false =>
    have hi : ioRegOf a ≠ .ext := fun h => by simp [(ioRegOf_ext a).mp h] at hx
    have hn : (s.noteRead a).extHistory = s.extHistory := by
      unfold State.noteRead
      cases regionOf a
      case extRam => cases s.extRamOpen <;> rfl
      case io =>
        cases h : ioRegOf a
        case ext => exact absurd h hi
        all_goals rfl
      all_goals rfl
    rw [hn]
    simp [hx]

/-! ### The instant DMA (R62) -/

/-- The address that byte `i` of a DMA is read from. -/
def dmaSource (page : Byte) (i : Nat) : Word := joinBytes page 0#8 + BitVec.ofNat 16 i

theorem dmaCopy_succ (page : Byte) (i n : Nat) :
    dmaCopy page i (n + 1) s =
      dmaCopy page (i + 1) n
        ((s.noteRead (dmaSource page i)).putRam (0xFE00 + i) (s.readByte (dmaSource page i))) := rfl

/-- A DMA of `m + n` bytes is one of `m` and then one of `n`. -/
theorem dmaCopy_add (page : Byte) (i m n : Nat) :
    dmaCopy page i (m + n) s = dmaCopy page (i + m) n (dmaCopy page i m s) := by
  induction m generalizing s i with
  | zero => rw [Nat.zero_add]; rfl
  | succ m ih => rw [Nat.succ_add, dmaCopy_succ, dmaCopy_succ, ih, Nat.add_right_comm, Nat.add_assoc]

/-- A DMA stores at OAM entry `j` what a read of its source gives after the bytes before it. -/
theorem dmaCopy_byte (page : Byte) {j n : Nat} (hj : j < n) (hm : Memory.wf s.mem = true) :
    (dmaCopy page 0 n s).ram (0xFE00 + j) = (dmaCopy page 0 j s).readByte (dmaSource page j) := by
  obtain ⟨k, rfl⟩ : ∃ k, n = j + (k + 1) := ⟨n - j - 1, by omega⟩
  have hwf : Memory.wf ((dmaCopy page 0 j s).noteRead (dmaSource page j)).mem = true := by
    simpa using dmaCopy_memWf s page 0 j hm
  rw [dmaCopy_add, Nat.zero_add, dmaCopy_succ, dmaCopy_ram _ _ _ _ (.inl (by omega))]
  exact readCells_writeCells_same _ hwf _ _

/-- A DMA changes no read of a byte that it has not stored. -/
theorem readByte_dmaCopy (page : Byte) (i n : Nat) {b : Word} (hx : isExternal b = false)
    (hk : ∀ j, i ≤ j → j < i + n → s.ramKey b ≠ some (0xFE00 + j)) :
    (dmaCopy page i n s).readByte b = s.readByte b := by
  induction n generalizing s i with
  | zero => rfl
  | succ n ih =>
    have hn : (s.noteRead (dmaSource page i)).ramKey b = s.ramKey b := ramKey_congr s (by simp) (by simp) (by simp) b
    rw [dmaCopy_succ, ih, readByte_putRam_other, readByte_noteRead s _ hx]
    · rw [hn]
      exact hk i le_rfl (by omega)
    · intro j hl hh
      rw [ramKey_congr (s.noteRead (dmaSource page i)) (by simp) (by simp) (by simp), hn]
      exact hk j (by omega) (by omega)

/-- The reads of a DMA that are recorded, in order. -/
theorem extHistory_dmaCopy (page : Byte) (n : Nat) :
    (dmaCopy page 0 n s).extHistory =
      s.extHistory ++ (((List.range n).map (dmaSource page)).filter isExternal).map .read := by
  induction n with
  | zero => simp [dmaCopy]
  | succ n ih =>
    rw [dmaCopy_add, dmaCopy_succ, List.range_succ, List.map_append, List.filter_append, List.map_append,
      ← List.append_assoc, ← ih]
    exact (extHistory_noteRead _ _).trans (by rw [Nat.zero_add]; rfl)

theorem toNat_joinBytes (h l : Byte) : (joinBytes h l).toNat = h.toNat * 256 + l.toNat := by
  refine (BitVec.toNat_append h l).trans ?_
  rw [← Nat.shiftLeft_add_eq_or_of_lt l.isLt, Nat.shiftLeft_eq]

theorem toNat_dmaSource (page : Byte) {i : Nat} (hi : i < 160) : (dmaSource page i).toNat = page.toNat * 256 + i := by
  have hp := page.isLt
  rw [dmaSource, BitVec.toNat_add, toNat_joinBytes, BitVec.toNat_ofNat, BitVec.toNat_ofNat]
  omega

/-- Where the source of byte `i` is a byte of OAM, it is entry `i` itself (page 0xFE). -/
theorem ramKey_dmaSource {page : Byte} {i j : Nat} (hi : i < 160) (hj : j < 160)
    (h : s.ramKey (dmaSource page i) = some (0xFE00 + j)) : j = i := by
  by_cases ho : regionOf (dmaSource page i) = .oam
  · have hb := region_bounds (dmaSource page i)
    simp only [ho, regionLow, regionHigh, toNat_dmaSource page hi] at hb
    simp only [State.ramKey, ho, toNat_dmaSource page hi, Option.some.injEq] at h
    omega
  · have := ramKey_oam s ho h
    omega

theorem ioRegOf_dma : ioRegOf 0xFF46#16 = .dma := by decide

theorem memWrite_dma_refused (v : Byte) (h : s.params.dma = .refuse) :
    memWrite 0xFF46#16 v s = .refused .dmaUnmodelled := by
  rw [memWrite_io s v (by decide), writeIo, ioRegOf_dma]
  simp only [h]

theorem readByte_dma_refused (h : s.params.dma = .refuse) : s.readByte 0xFF46#16 = 0xFF := by
  rw [readByte_io s (by decide), State.readIo, ioRegOf_dma]
  simp only [h]

/-- The state with `v` in the DMA register. -/
def State.withDma (s : State) (v : Byte) : State := { s with ppu := { s.ppu with dma := v } }

/-- The DMA register is read at 0xFF46 only. -/
theorem readByte_withDma (v : Byte) {b : Word} (hb : b ≠ 0xFF46#16) : (s.withDma v).readByte b = s.readByte b := by
  by_cases hio : regionOf b = .io
  · have hi : ioRegOf b ≠ .dma := fun h => hb (BitVec.eq_of_toNat_eq (ioRegOf_address (h ▸ rfl)))
    rw [readByte_io _ hio, readByte_io _ hio]
    unfold State.readIo
    cases h : ioRegOf b
    case dma => exact absurd h hi
    all_goals rfl
  · exact readByte_congr s b hio rfl rfl rfl rfl rfl rfl rfl

/-- The state after a write of `v` to 0xFF46 with `P_DMA = instant`. -/
def afterDma (s : State) (v : Byte) : State := dmaCopy v 0 160 (s.withDma v)

theorem memWrite_dma (v : Byte) (h : s.params.dma = .instant) : memWrite 0xFF46#16 v s = .next (afterDma s v) := by
  rw [memWrite_io s v (by decide), writeIo, ioRegOf_dma]
  simp only [h]
  rfl

theorem readByte_dma_instant (h : s.params.dma = .instant) : s.readByte 0xFF46#16 = s.ppu.dma := by
  rw [readByte_io s (by decide), State.readIo, ioRegOf_dma]
  simp only [h]

theorem readByte_oamEntry {i : Nat} (hi : i < 160) :
    s.readByte (0xFE00#16 + BitVec.ofNat 16 i) = s.ram (0xFE00 + i) := by
  have hn : (0xFE00#16 + BitVec.ofNat 16 i).toNat = 0xFE00 + i := toNat_dmaSource 0xFE#8 hi
  have hr : regionOf (0xFE00#16 + BitVec.ofNat 16 i) = .oam :=
    regionOf_of_bounds (by simp only [regionLow]; omega) (by simp only [regionHigh]; omega)
  simp only [State.readByte, hr, hn]

/-- The external device registers (R60), rising. -/
def deviceAddrs : List Word := [0xFF00#16, 0xFF01#16, 0xFF02#16, 0xFF04#16, 0xFF05#16, 0xFF06#16, 0xFF07#16]

theorem mem_deviceAddrs (a : Word) : a ∈ deviceAddrs ↔ isExternal a = true := by
  simp only [deviceAddrs, List.mem_cons, List.not_mem_nil, or_false, isExternal, isExtAddr, decide_eq_true_eq,
    BitVec.toNat_eq, BitVec.toNat_ofNat]
  omega

/-- The device registers among the first `n` sources of a DMA from page 0xFF. -/
theorem dmaSource_devices {n : Nat} (hn : n ≤ 160) :
    ((List.range n).map (dmaSource 0xFF#8)).filter isExternal =
      deviceAddrs.filter (fun d => decide (d.toNat < 0xFF00 + n)) := by
  have hall : ((List.range 160).map (dmaSource 0xFF#8)).filter isExternal = deviceAddrs := by decide +kernel
  have hcut : List.range n = (List.range 160).filter (fun i => decide (i < n)) := by
    rw [← List.Ico.zero_bot, ← List.Ico.zero_bot, List.Ico.filter_lt_of_ge hn]
  rw [hcut, ← hall, List.filter_filter, List.filter_map, List.filter_map, List.filter_filter]
  refine congrArg _ (List.filter_congr fun i hi => ?_)
  have hs := toNat_dmaSource 0xFF#8 (List.mem_range.mp hi)
  simp [hs, Bool.and_comm]

/-- R62: a DMA copies what its source read before it, where the source is not an external device. -/
theorem dma_copies {page : Byte} {i : Nat} (hm : Memory.wf s.mem = true) (hi : i < 160)
    (hx : isExternal (dmaSource page i) = false) :
    (dmaCopy page 0 160 s).readByte (0xFE00#16 + BitVec.ofNat 16 i) = s.readByte (dmaSource page i) := by
  rw [readByte_oamEntry _ hi, dmaCopy_byte s page hi hm]
  refine readByte_dmaCopy s page 0 i hx fun j _ hj hk => ?_
  have := ramKey_dmaSource s hi (by omega) hk
  omega

/-- R60, R62: from an external device a DMA copies the answer to its read. -/
theorem dma_copies_device {page : Byte} {i : Nat} (hm : Memory.wf s.mem = true) (hi : i < 160)
    (hx : isExternal (dmaSource page i) = true) :
    (dmaCopy page 0 160 s).readByte (0xFE00#16 + BitVec.ofNat 16 i) =
      Config.extAnswer (dmaCopy page 0 i s).extHistory (dmaSource page i) := by
  rw [readByte_oamEntry _ hi, dmaCopy_byte s page hi hm]
  exact (external_access _ hx).1

/-- The history after the first `n` bytes of a DMA from page 0xFF. -/
theorem extHistory_dmaCopy_page {n : Nat} (hn : n ≤ 160) :
    (dmaCopy 0xFF#8 0 n s).extHistory =
      s.extHistory ++ (deviceAddrs.filter (fun d => decide (d.toNat < 0xFF00 + n))).map .read := by
  rw [extHistory_dmaCopy, dmaSource_devices hn]

theorem readByte_afterDma_reg (v : Byte) (h : s.params.dma = .instant) : (afterDma s v).readByte 0xFF46#16 = v := by
  obtain ⟨-, -, -, -, -, hppu, -, -, -, -, -, hpar, -⟩ := dmaCopy_keeps (s.withDma v) v 0 160
  rw [afterDma, readByte_dma_instant _ ((congrArg Params.dma hpar).trans h), hppu]
  rfl

/-- R62: a DMA copies what its source read before it, where the source is neither an external device nor the DMA
register. -/
theorem readByte_afterDma {v : Byte} {i : Nat} (hm : Memory.wf s.mem = true) (hi : i < 160)
    (hx : isExternal (dmaSource v i) = false) (hb : dmaSource v i ≠ 0xFF46#16) :
    (afterDma s v).readByte (0xFE00#16 + BitVec.ofNat 16 i) = s.readByte (dmaSource v i) := by
  rw [afterDma, dma_copies (s.withDma v) hm hi hx, readByte_withDma s v hb]

end

/-! ### The obligations -/

/-- Settles O39: a store reads back by its key (`readByte_putRam`), and work RAM and its echo have the same key. -/
theorem ramWriteThenRead : Obligations.RamWriteThenRead := by
  intro s a v hm
  refine ⟨fun k hk => ⟨s.putRam k v, memWrite_ram s v hk, rfl, putRam_memWf s k v hm, readByte_putRam s v hm⟩,
    fun hl hh => ?_⟩
  have ha := ramKey_workRam s hl hh
  have he := ramKey_echo s hl hh
  exact ⟨by rw [readByte_ram s ha, readByte_ram s he], ⟨_, memWrite_ram s v ha, readByte_putRam_same s v hm he⟩,
    ⟨_, memWrite_ram s v he, readByte_putRam_same s v hm ha⟩⟩

/-- Settles O42: a control write leaves the mapper as `MapperState.control` says (`control_eq`) and makes the reports of
the state it leaves. -/
theorem mapperWrites : Obligations.MapperWrites := by
  intro s a v ha
  rw [memWrite_rom s v ha, mapperWrite, isMbc1_eq]
  refine ⟨fun hk => by simp [hk], fun hk => ?_⟩
  rw [decide_eq_true hk, if_pos rfl]
  exact ⟨_, _, rfl, rfl, control_ramEnable .., control_romBankLo .., control_bankHi .., control_bankMode ..,
    fun r => mem_bankReports _⟩

/-- Settles O43: the sizes from the header's codes, and each bank an index fitted to its count (`banks_mbc1`,
`fitBank_lt`). -/
theorem effectiveBanks : Obligations.EffectiveBanks := by
  intro s
  refine ⟨romBanks_eq _, ramSize_eq _, ramBanks_eq _, fun hk => ?_⟩
  obtain ⟨h4, h0, hr⟩ := banks_mbc1 s hk
  rw [h4, h0, hr]
  refine ⟨?_, ?_, rfl, fitBank_lt _ _ (romBanks_pos _), fitBank_lt _ _ (romBanks_pos _),
    fitBank_lt _ _ (ramBanks_pos _)⟩
  · rw [raw4000_eq]
    rfl
  · rw [MapperState.raw0000, Nat.mul_comm]
    rfl

/-- Settles O46: each OAM entry holds what its source read when it was copied (`dmaCopy_byte`), which is what it read at
first except at the DMA register and at the external devices, whose answers depend on the reads before. -/
theorem oamDma : Obligations.OamDma := by
  intro s v
  refine ⟨fun hp => ⟨memWrite_dma_refused s v hp, readByte_dma_refused s hp⟩, fun hp hm => ?_⟩
  have hw := memWrite_dma s v hp
  refine ⟨afterDma s v, hw, readByte_afterDma_reg s v hp, memWrite_memoryKept s hw, fun hv i hi => ?_, ?_⟩
  · have hn := toNat_dmaSource v hi
    have hx : isExternal (dmaSource v i) = false := by
      simp only [isExternal, isExtAddr, decide_eq_false_iff_not]
      omega
    refine readByte_afterDma s hm hi hx fun h => ?_
    rw [h, BitVec.toNat_ofNat] at hn
    omega
  · rintro rfl
    refine ⟨extHistory_dmaCopy_page (s.withDma 0xFF#8) le_rfl, fun i hi => ?_⟩
    change _ = if dmaSource 0xFF#8 i ∈ deviceAddrs then _ else _
    split_ifs with hd h <;> rw [mem_deviceAddrs] at hd
    · rw [afterDma, dma_copies_device (s.withDma 0xFF#8) hm hi hd, extHistory_dmaCopy_page _ hi.le]
      rfl
    · subst h
      rw [afterDma, dma_copies (s.withDma 0xFF#8) hm hi (by decide)]
      exact readByte_dma_instant (s.withDma 0xFF#8) hp
    · have hn := toNat_dmaSource 0xFF#8 hi
      refine readByte_afterDma s hm hi (Bool.eq_false_of_not_eq_true hd) fun hb => h ?_
      rw [hb, BitVec.toNat_ofNat, BitVec.toNat_ofNat] at hn
      omega

/-- Settles O53: `ppuWrote_advance` says what any number of ticks writes, and each tick keeps the requests that are
not the PPU's. -/
theorem ppuWritesOnly : Obligations.PpuWritesOnly := fun n s =>
  ⟨ppuWrote_advance s n, fun j hj =>
    advance_induction s (P := fun u => u.irq.ifr.getLsbD j = s.irq.ifr.getLsbD j)
      (fun u hu => (tick_other_requests u hj).trans hu) n rfl⟩

/-- Settles O38: each range by its row of the dispatcher's table. -/
theorem romReads : Obligations.RomReads := fun s _ =>
  ⟨readByte_boot s, readByte_romFixed s, readByte_romSwitch s, banks_romOnly s⟩

/-- Settles O40: the window is open exactly where RAM is enabled and present. -/
theorem externalRam : Obligations.ExternalRam := by
  intro s a v hl hh
  have hr : regionOf a = .extRam := regionOf_of_bounds hl hh
  refine ⟨fun he hs => extRam_open s hr ((extRamOpen_iff s).mpr ⟨he, hs⟩), fun h => ?_⟩
  have ho : s.extRamOpen = false := by
    rw [← Bool.not_eq_true, extRamOpen_iff]
    rintro ⟨he, hs⟩
    obtain h | h := h
    · rw [h] at he
      cases he
    · omega
  obtain ⟨h1, h2, h3⟩ := unmappedAt_extRam s hr ho
  exact ⟨h1, h2, h3 v⟩

/-- Settles O41: the reserved row, and the addresses of the I/O window that no register has. -/
theorem unmappedAccess : Obligations.UnmappedAccess := by
  intro s a v h
  have hu : unmappedAt s a := by
    obtain ⟨hl, hh⟩ | h := h
    · exact unmappedAt_reserved s (regionOf_of_bounds hl (Nat.lt_succ_of_le hh))
    · exact unmappedAt_unused s
        (regionOf_of_bounds (by simp only [regionLow]; omega) (by simp only [regionHigh]; omega)) (ioRegOf_unused h)
  obtain ⟨h1, h2, h3⟩ := hu
  exact ⟨h1, h2, h3 v⟩

/-- Settles O47, from what one access of a device register does and from the frame of a read. -/
theorem readsAndDevices : Obligations.ReadsAndDevices := by
  intro s a v
  refine ⟨fun h => ?_, noteRead_frame s a, fun b hb => readByte_noteRead s a hb⟩
  obtain ⟨h1, h2, h3⟩ := external_access s (decide_eq_true h)
  exact ⟨h1, h2, h3 v⟩

end Sys2Proof.Machine

/-! PROOFS of O2, O4, O3 and O31 (30_encoding). The encoder is read back from the decoder's tables by the fields
of an opcode byte (`encode_decodeBytes`), and `decode` is taken apart once (`decode_ok`, `decode_error`). A step
that performs an instruction is one fetch from `fetchState` (`step_of_performs`). -/

namespace Sys2Proof.Machine

section

/-! ### The encoder reads the decoder's tables back -/

/-- The opcode byte of the fields of R82. -/
def opcodeByte (x : Nat) (y z : Fin 8) : Byte := BitVec.ofNat 8 (64 * x + 8 * y + z)

theorem opcodeByte_fields (o : Byte) : opcodeByte (fieldX o) (fieldY o) (fieldZ o) = o := by
  revert o; decide +kernel

/-- The operand bytes of an instruction of `k` bytes: none, byte 1, or a word with its low byte first (R71, R81). -/
def operandBytes (k : Nat) (n : Byte) (nn : Word) : List Byte :=
  match k with
  | 2 => [n]
  | 3 => [loByte nn, hiByte nn]
  | _ => []

theorem encode_aluR (y z : Fin 8) :
    encode (Instr.aluR (aluOfCode y) (operand8OfCode z)) = [opcodeByte 2 y z] := by
  revert y z; decide

/-- R90. -/
theorem encode_decodePrefixed (o : Byte) : encode (decodePrefixed o) = [0xCB#8, o] := by
  revert o; decide +kernel

theorem wellFormed_decodePrefixed (o : Byte) : (decodePrefixed o).wellFormed = true := by
  revert o; decide +kernel

/-- R89, `x = 0`, column by column of the opcode map. -/
theorem encode_decodeX0 (y z : Fin 8) (n : Byte) (nn : Word) : encode (decodeX0 (opcodeByte 0 y z) n nn) =
    opcodeByte 0 y z :: operandBytes (instrLength (opcodeByte 0 y z)) n nn := by
  fin_cases z <;> fin_cases y <;> rfl

/-- R89, `x = 1`. -/
theorem encode_decodeX1 (y z : Fin 8) : encode (decodeX1 (opcodeByte 1 y z)) = [opcodeByte 1 y z] := by
  revert y z; decide

/-- R89, `x = 3`: the rows of the escape byte go on in the prefixed table. -/
theorem encode_decodeX3 (y z : Fin 8) (n : Byte) (nn : Word) : encode (decodeX3 (opcodeByte 3 y z) n nn) =
    opcodeByte 3 y z :: operandBytes (instrLength (opcodeByte 3 y z)) n nn := by
  fin_cases z
  rotate_left 3
  · -- column 3: after `JP a16` the escape byte
    fin_cases y
    · rfl
    · exact encode_decodePrefixed n
    all_goals rfl
  all_goals fin_cases y <;> rfl

theorem encode_decodeBytes (b0 b1 b2 : Byte) :
    encode (decodeBytes b0 b1 b2) = b0 :: operandBytes (instrLength b0) b1 (joinBytes b2 b1) := by
  have ho := opcodeByte_fields b0
  unfold decodeBytes
  obtain h | h | h | h := fieldX_cases b0 <;> simp only [h] at ho ⊢
  · have he := encode_decodeX0 (fieldY b0) (fieldZ b0) b1 (joinBytes b2 b1)
    rwa [ho] at he
  · have hl : instrLength b0 = 1 := by simp [instrLength, h]
    have he := encode_decodeX1 (fieldY b0) (fieldZ b0)
    rw [ho] at he
    rw [he, hl]
    rfl
  · have hl : instrLength b0 = 1 := by simp [instrLength, h]
    rw [encode_aluR, ho, hl]
    rfl
  · have he := encode_decodeX3 (fieldY b0) (fieldZ b0) b1 (joinBytes b2 b1)
    rwa [ho] at he

theorem wellFormed_decodeBytes (b0 b1 b2 : Byte) : (decodeBytes b0 b1 b2).wellFormed = true := by
  by_cases h : b0 = 0xCB#8
  · subst h
    exact wellFormed_decodePrefixed b1
  · exact wellFormed_of_encode (encode_decodeBytes b0 b1 b2) h

/-- R81: byte 0 fixes the length of the encoding. -/
theorem length_operandBytes (o n : Byte) (nn : Word) :
    (o :: operandBytes (instrLength o) n nn).length = instrLength o := by
  obtain h | h | h := instrLength_cases o <;> rw [h] <;> rfl

/-! ### What `decode` answers -/

theorem decode_ok {bs r : List Byte} {i : Instr} (h : decode bs = .ok (i, r)) :
    ∃ b0 b1 b2, i = decodeBytes b0 b1 b2 ∧
      b0 :: operandBytes (instrLength b0) b1 (joinBytes b2 b1) ++ r = bs := by
  unfold decode at h
  split at h
  · cases h
  · split at h <;> cases h
    case h_1 b0 _ _ hl => exact ⟨b0, 0, 0, rfl, by rw [hl]; rfl⟩
    case h_2 b0 _ _ b1 hl => exact ⟨b0, b1, 0, rfl, by simp [hl, operandBytes]⟩
    case h_3 b0 _ _ b1 b2 hl => exact ⟨b0, b1, b2, rfl, by simp [hl, operandBytes]⟩

theorem decode_error {bs : List Byte} {e : DecodeReject} (h : decode bs = .error e) :
    bs = [] ∨ bs.length < instrLength (bs.headD 0#8) := by
  cases bs with
  | nil => exact .inl rfl
  | cons b0 r =>
    refine .inr (Nat.lt_of_not_le fun hlen => ?_)
    obtain hl | hl | hl := instrLength_cases b0 <;> rw [List.headD_cons, hl] at hlen
    · simp [decode, hl] at h
    · obtain _ | ⟨b1, r⟩ := r
      · simp at hlen
      · simp [decode, hl] at h
    · obtain _ | ⟨b1, _ | ⟨b2, r⟩⟩ := r
      · simp at hlen
      · simp at hlen
      · simp [decode, hl] at h

/-! ### The prefixed table (R90) -/

variable (s : State)

theorem exec_rotR (op : Rot) (r : Operand8) : exec (Instr.rotR op r) s = rotateOperand op r s := by
  cases op <;> rcases r with (_ | _ | _ | _ | _ | _ | _) | _ <;> rfl

theorem exec_bitR (b : Fin 8) (r : Operand8) : exec (Instr.bitR b r) s = testBit b r s := by
  fin_cases b <;> rcases r with (_ | _ | _ | _ | _ | _ | _) | _ <;> rfl

theorem exec_resR (b : Fin 8) (r : Operand8) : exec (Instr.resR b r) s = resetBitOf b r s := by
  fin_cases b <;> rcases r with (_ | _ | _ | _ | _ | _ | _) | _ <;> rfl

theorem exec_setR (b : Fin 8) (r : Operand8) : exec (Instr.setR b r) s = setBitOf b r s := by
  fin_cases b <;> rcases r with (_ | _ | _ | _ | _ | _ | _) | _ <;> rfl

theorem exec_decodePrefixed (op : Byte) : exec (decodePrefixed op) s = prefixedRow op s := by
  unfold decodePrefixed prefixedRow
  obtain h | h | h | h := fieldX_cases op <;> simp only [h]
  · exact exec_rotR s _ _
  · exact exec_bitR s _ _
  · exact exec_resR s _ _
  · exact exec_setR s _ _

/-! ### A step that performs an instruction (R220) -/

@[simp] theorem fetchState_pc : (fetchState s).pc = s.pc := by
  obtain ⟨-, -, hpc, -⟩ := beginStep_keeps s
  exact hpc

@[simp] theorem fetchState_hbPending : (fetchState s).irq.hbPending = s.irq.hbPending := by
  have hc := ctl_fetchState s
  simp only [Irq.ctl, Prod.mk.injEq] at hc
  obtain ⟨-, -, -, hb⟩ := hc
  exact hb

/-- R93: the fetch is one of the state `fetchState`. -/
theorem perform_fetchState :
    perform (wake (beginStep s)) = exec (fetchInstr (fetchState s)).1 (fetchInstr (fetchState s)).2 := by
  obtain ⟨-, -, hpc, -⟩ := beginStep_keeps s
  rw [fetchState, ← hpc]
  rfl

/-- Of the ways a step can go, one that performs is the last. -/
theorem step_of_performs (h : performs s = true) :
    step s = andThen (exec (fetchInstr (fetchState s)).1 (fetchInstr (fetchState s)).2)
      fun t => .next (advance t.out.cycles (eiCountdown t)) := by
  simp only [performs, Bool.and_eq_true, decide_eq_true_eq, Bool.not_eq_true', Bool.and_eq_false_iff,
    decide_eq_false_iff_not] at h
  obtain ⟨⟨⟨hf, hr⟩, hidle⟩, hservice⟩ := h
  obtain ⟨f, he, -⟩ | ⟨r, -, he, -⟩ | ⟨-, -, hh, hn, -⟩ | ⟨-, -, hm, hn, -⟩ | ⟨-, hst⟩ := step_cases s
  · simp [hf] at he
  · simp [hr] at he
  · simp [hh, hn] at hidle
  · simp only [hm, Bool.true_eq_false, false_or] at hservice
    exact absurd hn hservice
  · rw [hst, perform_fetchState]

end

/-! ### The obligations -/

/-- Settles O2: `decode_ok` and `decode_error` say what `decode` answers, and `encode_decodeBytes` reads the tables
back. -/
theorem encodeDecode : Obligations.EncodeDecode := by
  refine fun bs => ⟨fun i r h => ?_, fun e h => decode_error h⟩
  obtain ⟨b0, b1, b2, rfl, rfl⟩ := decode_ok h
  rw [encode_decodeBytes]
  exact ⟨wellFormed_decodeBytes b0 b1 b2, rfl, length_operandBytes b0 b1 _⟩

/-- Settles O4: both rows select the same shared operation (`exec_decodePrefixed`), and `execSpec_decodePrefixed`
says where it completes. (`prefixedRow` alone is the model's function.) -/
theorem prefixedRow_holds : Obligations.PrefixedRow := by
  intro op s
  have he : exec (.prefixCB op) s = exec (decodePrefixed op) s := (exec_decodePrefixed s op).symm
  exact ⟨he, fun hw => he ▸ (execSpec_decodePrefixed s op).completes hw⟩

/-- Settles O3: each word by the row its fields select. -/
theorem decodeWords : Obligations.DecodeWords :=
  ⟨rfl, rfl, rfl, rfl, rfl, rfl, rfl, rfl, rfl, rfl, rfl, rfl⟩

/-- Settles O31: the step performs (`step_of_performs`), and what it fetches is what the bytes decode to
(`fetchInstr_eq`). -/
theorem stepRunsDecoded : Obligations.StepRunsDecoded := by
  intro s i rest hp hb w hd
  have hpc := fetchState_pc s
  have hf := fetchInstr_eq (fetchState s) ((fetchState_hbPending s).trans hb) (hpc ▸ hd)
  rw [step_of_performs s hp, hf, hpc]
  rfl

end Sys2Proof.Machine

/-! PROOFS of O6 to O11 and O5 (40_load). A load or a store is settled once per shared operation (`loadMem`, `storeMem`,
`loadMemStep`, `storeMemStep`, …) and each instruction's row names its operation. What a write of a register or of a
pair leaves in the other registers is said once, over any state with the CPU state of `s`, so that it serves after
reads and after stores alike. -/

namespace Sys2Proof.Machine

section

variable (s : State)

/-! ### States with the same CPU state -/

theorem sameCpu_refl : sameCpu s s := ⟨rfl, rfl, rfl, rfl, rfl, rfl, rfl, rfl⟩

theorem sameCpu_noteRead (a : Word) : sameCpu s (s.noteRead a) := by simp [sameCpu]

theorem sameCpu_afterPop : sameCpu s (afterPop s) := by simp [sameCpu, afterPop]

variable {s} {u : State} (h : sameCpu s u)
include h

theorem keptRegs_of_sameCpu : keptRegs s u := by
  obtain ⟨hr, hsp, hpc, -⟩ := h
  exact ⟨reg_congr s hr, hsp, hpc⟩

theorem reg16_of_sameCpu (q : Reg16) : u.reg16 q = s.reg16 q := by
  obtain ⟨hr, hsp, -⟩ := h
  cases q <;> simp [State.reg16, State.bc, State.de, State.hl, hr, hsp]

theorem f_of_sameCpu : u.regs.f = s.regs.f := congrArg Regs.f h.1

end

section

variable (s : State)

/-! ### Writes of a register and of a pair (R22) -/

/-- R21, R22: a write of a pair leaves the other pairs alone. -/
theorem reg16_setReg16_ite (rr q : Reg16) (v : Word) :
    (s.setReg16 rr v).reg16 q = if q = rr then v else s.reg16 q := by
  cases rr <;> cases q <;> simp [State.setReg16, State.reg16, State.bc, State.de, State.hl]

theorem a_setReg16 (rr : Reg16) (v : Word) : (s.setReg16 rr v).regs.a = s.regs.a := by cases rr <;> rfl

theorem wrote8_setReg {u : State} (h : sameCpu s u) (r : Reg8) (v : Byte) (n : Nat) :
    wrote8 s ((u.setReg r v).cost n) r v := by
  obtain ⟨hr, hsp, hpc⟩ := keptRegs_of_sameCpu h
  exact ⟨fun q => by rw [reg_cost, reg_setReg, hr], hsp, hpc⟩

theorem wrote16_setReg16 {u : State} (h : sameCpu s u) (rr : Reg16) (v : Word) (n : Nat) :
    wrote16 s ((u.setReg16 rr v).cost n) rr v := by
  have hq := reg16_of_sameCpu h
  obtain ⟨hr, -, hpc, -⟩ := h
  obtain ⟨kpc, -⟩ := setReg16_keeps u rr v
  exact ⟨fun q => (reg16_setReg16_ite u rr q v).trans (by rw [hq q]),
    (a_setReg16 u rr v).trans (congrArg Regs.a hr), kpc.trans hpc⟩

/-! ### The operation of each row -/

theorem exec_ldRR (r q : Reg8) : exec (Instr.ldRR r q) s = loadReg r q s := by cases r <;> cases q <;> rfl

theorem exec_ldRN (r : Reg8) (n : Byte) : exec (Instr.ldRN r n) s = loadImm r n s := by cases r <;> rfl

theorem exec_ldR16N (rr : Reg16) (nn : Word) : exec (Instr.ldR16N rr nn) s = loadR16 rr nn s := by
  cases rr <;> rfl

theorem exec_ldRHl (r : Reg8) : exec (Instr.ldRHl r) s = loadMem r s.hl 8 s := by cases r <;> rfl

theorem exec_ldHlR (r : Reg8) : exec (Instr.ldHlR r) s = storeMem s.hl (s.reg r) 8 s := by cases r <;> rfl

theorem exec_push (rr : StkReg) : exec (Instr.push rr) s = pushReg rr s := by cases rr <;> rfl

variable {s} {i : Instr} {hl : Word}

/-- R109, R110. -/
theorem exec_loadMemStep (h : (i = .ld_A_atHLI ∧ hl = s.hl + 1) ∨ (i = .ld_A_atHLD ∧ hl = s.hl - 1)) :
    ∃ d, exec i s = loadMemStep d s ∧ hl = s.hl + d := by
  obtain ⟨rfl, rfl⟩ | ⟨rfl, rfl⟩ := h
  · exact ⟨1#16, rfl, rfl⟩
  · exact ⟨-1#16, rfl, BitVec.sub_eq_add_neg ..⟩

/-- R111, R112. -/
theorem exec_storeMemStep (h : (i = .ld_atHLI_A ∧ hl = s.hl + 1) ∨ (i = .ld_atHLD_A ∧ hl = s.hl - 1)) :
    ∃ d, exec i s = storeMemStep d s ∧ hl = s.hl + d := by
  obtain ⟨rfl, rfl⟩ | ⟨rfl, rfl⟩ := h
  · exact ⟨1#16, rfl, rfl⟩
  · exact ⟨-1#16, rfl, BitVec.sub_eq_add_neg ..⟩

/-! ### Loads and stores of a byte -/

theorem loadsByte_of_loadMem {r : Reg8} {a : Word} {n : Nat} (h : exec i s = loadMem r a n s) :
    loadsByte i s r a n :=
  have hu := sameCpu_noteRead s a
  ⟨_, h, rfl, wrote8_setReg s hu r _ n, (f_setReg _ r _).trans (f_of_sameCpu hu), rfl, memoryKept_read s rfl⟩

/-- The write of one byte, then a change of registers. -/
theorem stored_of_next {a : Word} {v : Byte} {w t : State} (hw : memWrite a v s = .next w)
    (ho : onlyRegisters w t) : stored s s a v t :=
  stored_of_memWrite s rfl rfl rfl rfl (fun _ _ => rfl) hw ho

theorem storesByte_of_storeMem {a : Word} {v : Byte} {n : Nat} (h : exec i s = storeMem a v n s) :
    storesByte i s a v n := by
  refine ⟨fun hm => ?_, fun hm => h.trans ((opSpec_storeMem s a v n).refused (by simpa using hm))⟩
  obtain ⟨w, hw⟩ := memWrite_completes s v hm
  obtain ⟨hc, -⟩ := memWrite_keeps s hw
  exact ⟨w.cost n, by rw [h, storeMem, hw, andThen_next], stored_of_next hw rfl, keptRegs_of_sameCpu hc,
    f_of_sameCpu hc, rfl⟩

/-! ### The stack (R100, R101) -/

/-- A push is one for every later change of registers but SP. -/
theorem pushed_onlyRegisters {v : Word} {t u : State} (h : pushed s v t) (g : onlyRegisters t u)
    (hr : u.regs = t.regs) (hsp : u.sp = t.sp) : pushed s v u := by
  obtain ⟨⟨x, y, hx, hy, ho⟩, hregs, hs, hm, hhi, hlo⟩ := h
  exact ⟨⟨x, y, hx, hy, onlyRegisters_trans y ho g⟩, hr.trans hregs, hsp.trans hs,
    memoryKept_onlyRegisters s hm g, holds_onlyRegisters s hhi g, holds_onlyRegisters s hlo g⟩

/-- The state after a pop, before its word is stored: SP is 2 higher (R101). -/
def popped (s : State) : State := { afterPop s with sp := s.sp + 2 }

theorem popReg_eq (rr : StkReg) : popReg rr s = .next (((popped s).setStkReg rr (popWord s)).cost 12) := by
  rw [popReg, pop16_eq]
  rfl

theorem reg16_popped {q : Reg16} (hq : q ≠ .sp) : (popped s).reg16 q = s.reg16 q := by
  have h := reg16_of_sameCpu (sameCpu_afterPop s) q
  cases q with
  | sp => exact absurd rfl hq
  | bc | de | hl => exact h

/-- R123: POP of a pair. -/
theorem exec_popPair {rr : Reg16}
    (h : (i = .pop_BC ∧ rr = .bc) ∨ (i = .pop_DE ∧ rr = .de) ∨ (i = .pop_HL ∧ rr = .hl)) :
    exec i s = .next (((popped s).setReg16 rr (popWord s)).cost 12) ∧ rr ≠ .sp := by
  obtain ⟨rfl, rfl⟩ | ⟨rfl, rfl⟩ | ⟨rfl, rfl⟩ := h
  · exact ⟨popReg_eq .bc, by decide⟩
  · exact ⟨popReg_eq .de, by decide⟩
  · exact ⟨popReg_eq .hl, by decide⟩

/-- R24, R25: the four flags are in the high nibble of F. -/
theorem ofByte_highNibble (v : Byte) : Flags.ofByte (v &&& 0xF0#8) = Flags.ofByte v := by
  simp [Flags.ofByte]

theorem highNibble_low (v : Byte) : (v &&& 0xF0#8) &&& 0x0F#8 = 0#8 := (BitVec.and_assoc ..).trans BitVec.and_zero

end

/-! ### The obligations -/

/-- Settles O6: every row is `loadMem` at its own address (`loadsByte_of_loadMem`). -/
theorem loadFromMemory : Obligations.LoadFromMemory := fun s =>
  ⟨fun r => loadsByte_of_loadMem (exec_ldRHl s r), loadsByte_of_loadMem rfl, loadsByte_of_loadMem rfl,
    fun _ => loadsByte_of_loadMem rfl, fun _ => loadsByte_of_loadMem rfl, loadsByte_of_loadMem rfl⟩

/-- Settles O7: every row is `storeMem` at its own address (`storesByte_of_storeMem`). -/
theorem storeToMemory : Obligations.StoreToMemory := fun s =>
  ⟨fun r => storesByte_of_storeMem (exec_ldHlR s r), fun _ => storesByte_of_storeMem rfl,
    storesByte_of_storeMem rfl, storesByte_of_storeMem rfl, fun _ => storesByte_of_storeMem rfl,
    fun _ => storesByte_of_storeMem rfl, storesByte_of_storeMem rfl⟩

/-- Settles O8: the two loads are `loadMemStep` and the two stores `storeMemStep`, at HL and then HL moved by `d`. -/
theorem loadStoreAndStep : Obligations.LoadStoreAndStep := by
  intro s i hl
  refine ⟨fun h => ?_, fun h => ?_⟩
  · obtain ⟨d, he, rfl⟩ := exec_loadMemStep h
    have hu := sameCpu_noteRead s s.hl
    obtain ⟨-, hsp, hpc⟩ := keptRegs_of_sameCpu hu
    exact ⟨_, he, rfl, rfl, joinBytes_hi_lo _, reg16_of_sameCpu hu .bc, reg16_of_sameCpu hu .de, hsp, hpc,
      (f_setReg16 _ .hl _).trans ((f_setReg _ .a _).trans (f_of_sameCpu hu)), rfl, memoryKept_read s rfl⟩
  · obtain ⟨d, he, rfl⟩ := exec_storeMemStep h
    refine ⟨fun hm => ?_, fun hm => he.trans ((opSpec_storeMemStep s d).refused (by simpa using hm))⟩
    obtain ⟨w, hw⟩ := memWrite_completes s s.regs.a hm
    obtain ⟨hc, -⟩ := memWrite_keeps s hw
    refine ⟨(w.setReg16 .hl (s.hl + d)).cost 8, ?_, stored_of_next hw rfl, wrote16_setReg16 s hc .hl _ 8,
      (f_setReg16 _ .hl _).trans (f_of_sameCpu hc), rfl⟩
    rw [he, storeMemStep, show s.reg .a = s.regs.a from rfl, hw, andThen_next]

/-- Settles O9: two writes at neighbouring addresses, each of which leaves the other's byte (`holds_two`). -/
theorem storeStackPointer : Obligations.StoreStackPointer := by
  intro a s hlo hhi
  obtain ⟨u, hu⟩ := memWrite_completes s (loByte s.sp) hlo
  obtain ⟨hcu, ⟨-, -, hp, -⟩, -⟩ := memWrite_keeps s hu
  obtain ⟨w, hw⟩ := memWrite_completes u (a := a + 1) (hiByte s.sp) ((mayWrite_congr s hp _).trans hhi)
  obtain ⟨hcw, -⟩ := memWrite_keeps u hw
  obtain ⟨hrs, hsp, hpc⟩ := keptRegs_of_sameCpu hcu
  obtain ⟨hrs', hsp', hpc'⟩ := keptRegs_of_sameCpu hcw
  have ho : onlyRegisters w (w.cost 20) := rfl
  obtain ⟨h1, h2⟩ := holds_two s (.inl rfl) hu hw
  have he : exec (.ld_ata16_SP a) s = .next (w.cost 20) := by
    change storeSp a s = _
    rw [storeSp, hu, andThen_next, hsp, hw, andThen_next]
  exact ⟨u, w, w.cost 20, he, hu, hw, ho, ⟨fun q => (hrs' q).trans (hrs q), hsp'.trans hsp, hpc'.trans hpc⟩,
    (f_of_sameCpu hcw).trans (f_of_sameCpu hcu), rfl, memoryKept_onlyRegisters s (memoryKept_two s hu hw) ho,
    holds_onlyRegisters s h1 ho, holds_onlyRegisters s h2 ho⟩

/-- Settles O10, from where a push ends (`push16_completes`, `push16_refused`). -/
theorem pushRegister : Obligations.PushRegister := by
  intro rr s
  rw [exec_push, pushReg]
  refine ⟨fun hm => ?_, fun hm => by rw [push16_refused s _ hm]; rfl⟩
  obtain ⟨t, ht, hp, hpc⟩ := push16_completes s (s.stkReg rr) hm
  exact ⟨t.cost 16, by rw [ht, andThen_next], pushed_onlyRegisters hp rfl rfl rfl, hpc, rfl⟩

/-- Settles O11: the two reads of a pop leave every register, and only the popped pair is written after them; of AF's
low byte the high nibble alone is kept, which is where the flags are. -/
theorem popRegister : Obligations.PopRegister := by
  intro s
  have hu := sameCpu_afterPop s
  have hf := f_of_sameCpu hu
  obtain ⟨hregs, -, hpc⟩ := keptRegs_of_sameCpu hu
  refine ⟨fun i rr h => ?_, ?_⟩
  · obtain ⟨he, hsp⟩ := exec_popPair (s := s) h
    have ho : onlyRegisters (afterPop s) (((popped s).setReg16 rr (popWord s)).cost 12) :=
      onlyRegisters_trans _ (t := popped s) rfl (only_setReg16 _ rr _ 12)
    obtain ⟨kpc, -⟩ := setReg16_keeps (popped s) rr (popWord s)
    refine ⟨_, he, ho, (reg16_setReg16_ite _ rr .sp _).trans (if_neg hsp.symm), fun q hq => ?_,
      (a_setReg16 _ rr _).trans (hregs .a), (f_setReg16 _ rr _).trans hf,
      kpc.trans hpc, rfl, memoryKept_pop s ho⟩
    exact (reg16_setReg16_ite _ rr q _).trans (by rw [reg16_popped hq])
  · exact ⟨_, popReg_eq .af, rfl, rfl, rfl, rfl, ⟨ofByte_highNibble _, highNibble_low _⟩,
      reg16_of_sameCpu hu .bc, reg16_of_sameCpu hu .de, reg16_of_sameCpu hu .hl, hpc, rfl, memoryKept_pop s rfl⟩

/-- Settles O5: each row writes its one register or pair (`wrote8_setReg`, `wrote16_setReg16`). -/
theorem loadRegister : Obligations.LoadRegister := fun s =>
  have hs := sameCpu_refl s
  ⟨fun r q => ⟨_, exec_ldRR s r q, rfl, wrote8_setReg s hs r _ 4, f_setReg s r _, rfl⟩,
    fun r n => ⟨_, exec_ldRN s r n, rfl, wrote8_setReg s hs r n 8, f_setReg s r n, rfl⟩,
    fun rr nn => ⟨_, exec_ldR16N s rr nn, only_setReg16 s rr nn 12, wrote16_setReg16 s hs rr nn 12,
      f_setReg16 s rr nn, rfl⟩,
    ⟨_, rfl, rfl, wrote16_setReg16 s hs .sp s.hl 8, rfl, rfl⟩⟩

end Sys2Proof.Machine

/-! PROOFS of O12 to O16 (41_alu8). Each ALU operation is settled on values first (`alu8`, `inc8`, `dec8`, `daa8` as the
rules state them), and a write of a register or an operand with new flags is said once, over any state with the CPU
state of `s`. For the decimal arithmetic a packed byte is its two digits, and the rest is arithmetic of integers. -/

namespace Sys2Proof.Machine

section

variable (s : State)

/-! ### Registers and flags after a write -/

theorem sameCpu_operandState (r : Operand8) : sameCpu s (operandState r s) := by
  cases r with
  | reg q => exact sameCpu_refl s
  | atHL => exact sameCpu_noteRead s s.hl

theorem flagsAre_setFlags (g : Flags) (n : Nat) : flagsAre ((s.setFlags g).cost n) g.z g.n g.h g.c :=
  ⟨flags_setFlags s g, toByte_low g⟩

theorem keptRegs_setFlags (g : Flags) (n : Nat) : keptRegs s ((s.setFlags g).cost n) :=
  ⟨fun q => reg_setFlags s q g, rfl, rfl⟩

variable {s}

theorem keptRegs_trans {t u : State} (h : keptRegs s t) (g : keptRegs t u) : keptRegs s u := by
  obtain ⟨hr, hsp, hpc⟩ := h
  obtain ⟨gr, gsp, gpc⟩ := g
  exact ⟨fun q => (gr q).trans (hr q), gsp.trans hsp, gpc.trans hpc⟩

theorem wrote8_keptRegs {t u : State} {r : Reg8} {v : Byte} (h : wrote8 s t r v) (g : keptRegs t u) :
    wrote8 s u r v := by
  obtain ⟨hr, hsp, hpc⟩ := h
  obtain ⟨gr, gsp, gpc⟩ := g
  exact ⟨fun q => (gr q).trans (hr q), gsp.trans hsp, gpc.trans hpc⟩

theorem wrote8_setFlags {u : State} (h : sameCpu s u) (r : Reg8) (v : Byte) (g : Flags) (n : Nat) :
    wrote8 s (((u.setReg r v).setFlags g).cost n) r v :=
  wrote8_keptRegs (wrote8_setReg s h r v n) (keptRegs_setFlags (u.setReg r v) g n)

/-- R83: the write back to an r8 operand that was read, for every later change of F and the cycle count. -/
theorem set8_written {r : Operand8} (v : Byte) (h : mayWriteOperand r s = true) :
    ∃ w, set8 r v (operandState r s) = .next w ∧
      ∀ t, onlyRegisters w t → keptRegs w t → operandWritten r v s t := by
  cases r with
  | reg q =>
    have hw : wrote8 s (s.setReg q v) q v := ⟨fun p => reg_setReg s q p v, rfl, rfl⟩
    exact ⟨s.setReg q v, rfl, fun t ho hk =>
      ⟨onlyRegisters_trans s (t := s.setReg q v) rfl ho, wrote8_keptRegs hw hk⟩⟩
  | atHL =>
    have hu := sameCpu_noteRead s s.hl
    obtain ⟨w, hw⟩ := memWrite_completes (s.noteRead s.hl) v ((mayWrite_noteRead s s.hl s.hl).trans h)
    obtain ⟨hc, -⟩ := memWrite_keeps _ hw
    refine ⟨w, ?_, fun t ho hk => ⟨?_, ?_⟩⟩
    · rw [← hw, operandState, set8, hl_congr s hu.1]
    · exact stored_of_memWrite s (by simp) (by simp) (by simp) (by simp)
        (fun _ hx => readByte_noteRead s s.hl hx) hw ho
    · exact keptRegs_trans (keptRegs_of_sameCpu hu) (keptRegs_trans (keptRegs_of_sameCpu hc) hk)

/-! ### The ALU operations on values (R131 to R144) -/

theorem carryByte_eq (c : Bool) : carryByte c = BitVec.ofNat 8 c.toNat := by cases c <;> rfl

theorem isZero_sub (a v : Byte) : isZero (a - v) = decide (a = v) :=
  decide_eq_decide.mpr (by rw [BitVec.sub_eq_iff_eq_add, BitVec.zero_add])

theorem isZero_xor (a v : Byte) : isZero (a ^^^ v) = decide (a = v) := decide_eq_decide.mpr BitVec.xor_eq_zero_iff

theorem add8_noCarry (a v : Byte) : add8 a v false =
    (a + v, ⟨isZero (a + v), false, decide (0xF < a.toNat % 16 + v.toNat % 16),
      decide (0xFF < a.toNat + v.toNat)⟩) := by
  simp [add8, carryByte, addHalf, addCarry]

theorem sub8_noCarry (a v : Byte) : sub8 a v false =
    (a - v, ⟨decide (a = v), true, decide (a.toNat % 16 < v.toNat % 16), decide (a.toNat < v.toNat)⟩) := by
  simp [sub8, carryByte, subHalf, subCarry, isZero_sub]

theorem isZero_add_one (v : Byte) : isZero (v + 1) = decide (v = 0xFF) :=
  decide_eq_decide.mpr (by bv_omega)

/-- R145: the adjustment as the two digits' own conditions. -/
theorem daa8_eq (a : Byte) (g : Flags) :
    let lo := g.h || (!g.n && decide (9 < a.toNat % 16))
    let hi := g.c || (!g.n && decide (0x99 < a.toNat))
    let u : Byte := if lo then (if hi then 0x66 else 0x06) else (if hi then 0x60 else 0x00)
    let r := if g.n then a - u else a + u
    daa8 a g = (r, ⟨isZero r, g.n, false, hi⟩) := by
  intro lo hi u r
  have hlo : (g.h = true ∨ g.n = false ∧ 9 < a.toNat % 16) ↔ lo = true := by simp [lo]
  have hhi : (g.c = true ∨ g.n = false ∧ 0x99 < a.toNat) ↔ hi = true := by simp [hi]
  have hu : daaAdjust a g = u := by
    simp only [daaAdjust, hlo, hhi, u]
    cases lo <;> cases hi <;> rfl
  rw [daa8, hu]

/-! ### A decimal adjustment after an addition or a subtraction (R145) -/

theorem toNat_bcd {n : Nat} (h : n < 100) : (bcd n).toNat = n + 6 * (n / 10) := by
  rw [bcd, BitVec.toNat_ofNat, Nat.mod_eq_of_lt (show n / 10 < 10 by omega)]
  omega

theorem lowDigit_bcd {n : Nat} (h : n < 100) : (bcd n).toNat % 16 = n % 10 := by
  rw [toNat_bcd h]
  omega

theorem toNat_add8 (a v : Byte) (c : Bool) : (add8 a v c).1.toNat = (a.toNat + v.toNat + c.toNat) % 256 := by
  simp [add8, carryByte_eq, BitVec.toNat_add]

theorem toNat_sub8 (a v : Byte) (c : Bool) :
    (sub8 a v c).1.toNat = (512 + a.toNat - v.toNat - c.toNat) % 256 := by
  have hv := v.isLt
  have hc := c.toNat_lt
  simp only [sub8, carryByte_eq, BitVec.toNat_sub, BitVec.toNat_ofNat]
  omega

/-- R145: the value of an adjustment whose low digit is adjusted if `lo` and whose high digit is if `hi`. -/
theorem daa8_adjusts {a : Byte} {g : Flags} {n lo hi : Bool} (hn : g.n = n)
    (hlo : (g.h || (!n && decide (9 < a.toNat % 16))) = lo)
    (hhi : (g.c || (!n && decide (0x99 < a.toNat))) = hi) :
    (daa8 a g).2.c = hi ∧ (daa8 a g).1.toNat =
      (if n = true then 256 + a.toNat - ((if lo = true then 6 else 0) + (if hi = true then 0x60 else 0))
        else a.toNat + ((if lo = true then 6 else 0) + (if hi = true then 0x60 else 0))) % 256 := by
  have hu : (if lo then (if hi then 0x66 else 0x06) else (if hi then 0x60 else 0x00) : Byte).toNat =
      (if lo = true then 6 else 0) + (if hi = true then 0x60 else 0) := by
    cases lo <;> cases hi <;> rfl
  rw [daa8_eq, hn, hlo, hhi, ← hu]
  refine ⟨rfl, ?_⟩
  cases n with
  | false => exact BitVec.toNat_add ..
  | true =>
    refine (BitVec.toNat_sub ..).trans (congrArg (· % 256) ?_)
    rw [if_pos rfl]
    omega

/-- A sum `p` of two packed bytes and a carry: what leaves the byte as a carry or is above 0x99 in it. -/
theorem carry_or_above {p : Nat} (h : p < 0x134) : 0xFF < p ∨ 0x99 < p % 256 ↔ 0x99 < p := by omega

section

variable {x y : Nat} (hx : x < 100) (hy : y < 100) (c : Bool)
include hx hy

/-- The low digit of a sum is adjusted where it carries, and the high digit where the sum reaches 100. -/
theorem add8_bcd_adjusts :
    let q := add8 (bcd x) (bcd y) c
    (q.2.h || (!q.2.n && decide (9 < q.1.toNat % 16))) = decide (9 < x % 10 + y % 10 + c.toNat) ∧
    (q.2.c || (!q.2.n && decide (0x99 < q.1.toNat))) = decide (100 ≤ x + y + c.toNat) := by
  have hc := c.toNat_lt
  have hlow := lowDigit_bcd hx
  have hlow' := lowDigit_bcd hy
  simp only [toNat_add8]
  simp only [add8, addHalf, addCarry, Bool.not_false, Bool.true_and, ← Bool.decide_or, decide_eq_decide]
  refine ⟨by omega, ?_⟩
  rw [toNat_bcd hx, toNat_bcd hy, carry_or_above (by omega)]
  omega

/-- The low digit of a difference is adjusted where it borrows, and the high digit where the difference does. -/
theorem sub8_bcd_adjusts :
    let q := sub8 (bcd x) (bcd y) c
    (q.2.h || (!q.2.n && decide (9 < q.1.toNat % 16))) = decide (x % 10 < y % 10 + c.toNat) ∧
    (q.2.c || (!q.2.n && decide (0x99 < q.1.toNat))) = decide (x < y + c.toNat) := by
  have hc := c.toNat_lt
  have hlow := lowDigit_bcd hx
  have hlow' := lowDigit_bcd hy
  simp only [sub8, subHalf, subCarry, Bool.not_true, Bool.false_and, Bool.or_false, decide_eq_decide]
  refine ⟨by omega, ?_⟩
  rw [toNat_bcd hx, toNat_bcd hy]
  omega

theorem daa8_add8_bcd :
    let q := add8 (bcd x) (bcd y) c
    (daa8 q.1 q.2).1 = bcd ((x + y + c.toNat) % 100) ∧ (daa8 q.1 q.2).2.c = decide (100 ≤ x + y + c.toNat) := by
  have hc := c.toNat_lt
  obtain ⟨hlo, hhi⟩ := add8_bcd_adjusts hx hy c
  obtain ⟨hcarry, hr⟩ := daa8_adjusts (n := false) rfl hlo hhi
  refine ⟨BitVec.eq_of_toNat_eq ?_, hcarry⟩
  rw [hr, if_neg Bool.false_ne_true, toNat_add8, toNat_bcd hx, toNat_bcd hy, toNat_bcd (Nat.mod_lt _ (by decide))]
  simp only [decide_eq_true_eq]
  split_ifs <;> omega

theorem daa8_sub8_bcd :
    let q := sub8 (bcd x) (bcd y) c
    (daa8 q.1 q.2).1 = bcd ((x + 100 - y + 100 - c.toNat) % 100) ∧
    (daa8 q.1 q.2).2.c = decide (x < y + c.toNat) := by
  have hc := c.toNat_lt
  obtain ⟨hlo, hhi⟩ := sub8_bcd_adjusts hx hy c
  obtain ⟨hborrow, hr⟩ := daa8_adjusts (n := true) rfl hlo hhi
  refine ⟨BitVec.eq_of_toNat_eq ?_, hborrow⟩
  rw [hr, if_pos rfl, toNat_sub8, toNat_bcd hx, toNat_bcd hy, toNat_bcd (Nat.mod_lt _ (by decide))]
  simp only [decide_eq_true_eq]
  split_ifs <;> omega

end

/-! ### The eight operations (R130, R135 to R142) -/

section

variable {u : State} (h : sameCpu s u) {op : Alu} {v r : Byte} {g : Flags} (n : Nat)
  (hr : alu8 op s.regs.a v s.flags.c = (r, g))
include h

theorem aluApply_eq : aluApply op v u =
    (if aluWritesA op then u.setReg .a (alu8 op s.regs.a v s.flags.c).1 else u).setFlags
      (alu8 op s.regs.a v s.flags.c).2 := by
  simp only [aluApply, reg_congr s h.1, flags_congr s h.1]
  rfl

include hr

theorem aluApply_flags : flagsAre ((aluApply op v u).cost n) g.z g.n g.h g.c := by
  rw [aluApply_eq h, hr]
  exact flagsAre_setFlags _ g n

theorem aluApply_writes (hw : aluWritesA op = true) :
    wrote8 s ((aluApply op v u).cost n) .a r ∧ flagsAre ((aluApply op v u).cost n) g.z g.n g.h g.c := by
  refine ⟨?_, aluApply_flags h n hr⟩
  rw [aluApply_eq h, hr, if_pos hw]
  exact wrote8_setFlags h .a r g n

theorem aluApply_keeps (hw : aluWritesA op = false) :
    keptRegs s ((aluApply op v u).cost n) ∧ flagsAre ((aluApply op v u).cost n) g.z g.n g.h g.c := by
  refine ⟨?_, aluApply_flags h n hr⟩
  rw [aluApply_eq h, hr, hw]
  exact keptRegs_trans (keptRegs_of_sameCpu h) (keptRegs_setFlags u g n)

end

theorem aluEffect_aluApply {u : State} (h : sameCpu s u) (op : Alu) (v : Byte) (n : Nat) :
    aluEffect op s.regs.a v s.flags.c s ((aluApply op v u).cost n) := by
  cases op with
  | add => exact aluApply_writes h n (op := .add) (add8_noCarry ..) rfl
  | adc =>
    rw [aluEffect, ← carryByte_eq]
    exact aluApply_writes h n rfl rfl
  | sub => exact aluApply_writes h n (op := .sub) (sub8_noCarry ..) rfl
  | sbc =>
    rw [aluEffect, ← carryByte_eq]
    exact aluApply_writes h n rfl rfl
  | and => exact aluApply_writes h n rfl rfl
  | xor =>
    rw [aluEffect, ← isZero_xor]
    exact aluApply_writes h n rfl rfl
  | or => exact aluApply_writes h n rfl rfl
  | cp => exact aluApply_keeps h n (op := .cp) (sub8_noCarry ..) rfl

/-! ### Instructions -/

theorem exec_aluR (op : Alu) (r : Operand8) : exec (Instr.aluR op r) s = aluOperand op r s := by
  cases op <;> rcases r with (_ | _ | _ | _ | _ | _ | _) | _ <;> rfl

theorem exec_aluN (op : Alu) (n : Byte) : exec (Instr.aluN op n) s = aluImm op n s := by cases op <;> rfl

theorem exec_incR8 (r : Operand8) : exec (Instr.incR8 r) s = incOperand r s := by
  rcases r with (_ | _ | _ | _ | _ | _ | _) | _ <;> rfl

theorem exec_decR8 (r : Operand8) : exec (Instr.decR8 r) s = decOperand r s := by
  rcases r with (_ | _ | _ | _ | _ | _ | _) | _ <;> rfl

theorem incOperand_eq (r : Operand8) : incOperand r s =
    andThen (set8 r (operandValue r s + 1) (operandState r s)) fun w =>
      .next ((w.setFlags (inc8 (operandValue r s) s.flags).2).cost (costOf r 4 12)) := by
  rw [incOperand, get8_eq, ← flags_operandState s r]
  rfl

theorem decOperand_eq (r : Operand8) : decOperand r s =
    andThen (set8 r (operandValue r s - 1) (operandState r s)) fun w =>
      .next ((w.setFlags (dec8 (operandValue r s) s.flags).2).cost (costOf r 4 12)) := by
  rw [decOperand, get8_eq, ← flags_operandState s r]
  rfl

theorem costOf_eq (r : Operand8) (m n : Nat) : costOf r m n = if r = .atHL then n else m := by cases r <;> rfl

theorem memoryKept_operandState {r : Operand8} {t : State} (h : onlyRegisters (operandState r s) t) :
    memoryKept s t [] := by
  cases r with
  | reg q => exact fun b _ _ => readByte_onlyRegisters s h b
  | atHL => exact memoryKept_read s h

/-- R83: a write back to an r8 operand and then new flags. -/
theorem modify_flags {r : Operand8} (v : Byte) (g : Flags) (n : Nat) (h : mayWriteOperand r s = true) :
    ∃ t, (andThen (set8 r v (operandState r s)) fun w => .next ((w.setFlags g).cost n)) = .next t ∧
      operandWritten r v s t ∧ flagsAre t g.z g.n g.h g.c ∧ t.out.cycles = n := by
  obtain ⟨w, hw, hk⟩ := set8_written v h
  exact ⟨(w.setFlags g).cost n, by rw [hw, andThen_next], hk _ rfl (keptRegs_setFlags w g n),
    flagsAre_setFlags w g n, rfl⟩

theorem aluN_next {op : Alu} {n : Byte} {t : State} (hw : aluWritesA op = true)
    (h : exec (Instr.aluN op n) s = .next t) :
    t.regs.a = (alu8 op s.regs.a n s.flags.c).1 ∧ t.flags = (alu8 op s.regs.a n s.flags.c).2 := by
  rw [exec_aluN, aluImm, aluApply_eq (sameCpu_refl s), if_pos hw] at h
  cases h
  exact ⟨rfl, flags_setFlags _ _⟩

theorem daa_next {t : State} (h : exec .daa s = .next t) :
    t.regs.a = (daa8 s.regs.a s.flags).1 ∧ t.flags = (daa8 s.regs.a s.flags).2 := by
  cases h
  exact ⟨rfl, flags_setFlags _ _⟩

/-- DAA after an ALU operation with an immediate: `daa8` after `alu8`. -/
theorem daa_after_alu {op : Alu} {n : Byte} {t u : State} (hw : aluWritesA op = true)
    (ht : exec (Instr.aluN op n) s = .next t) (hu : exec .daa t = .next u) :
    let q := alu8 op s.regs.a n s.flags.c
    u.regs.a = (daa8 q.1 q.2).1 ∧ u.flags.c = (daa8 q.1 q.2).2.c := by
  obtain ⟨ha, hf⟩ := aluN_next hw ht
  obtain ⟨ha', hf'⟩ := daa_next hu
  rw [ha', hf', ha, hf]
  exact ⟨rfl, rfl⟩

end

/-! ### The obligations -/

/-- Settles O12: `alu8` as the rules state each operation (`aluEffect_aluApply`), over the state after the operand's
read. -/
theorem aluOperations : Obligations.AluOperations := by
  refine fun op s => ⟨fun r => ?_, fun n => ?_⟩
  · have ho := only_alu (operandState r s) op (operandValue r s) (costOf r 4 8)
    refine ⟨_, ?_, ho, aluEffect_aluApply (sameCpu_operandState s r) op _ _, costOf_eq r 4 8,
      memoryKept_operandState ho⟩
    rw [exec_aluR, aluOperand, get8_eq]
  · exact ⟨_, exec_aluN op n, only_alu s op n 8, aluEffect_aluApply (sameCpu_refl s) op n 8, rfl⟩

/-- Settles O13: one read of the operand, then one write back (`modify_flags`). -/
theorem incDecByte : Obligations.IncDecByte := by
  intro r s h v
  rw [exec_incR8, exec_decR8, incOperand_eq, decOperand_eq, ← costOf_eq, ← isZero_add_one, ← isZero_sub]
  exact ⟨modify_flags (v + 1) (inc8 v s.flags).2 _ h, modify_flags (v - 1) (dec8 v s.flags).2 _ h⟩

/-- Settles O14, by the adjustment's two conditions (`daa8_eq`). (`decimalAdjust` alone is the model's function.) -/
theorem decimalAdjust_holds : Obligations.DecimalAdjust := by
  intro s lo hi u r
  have he : daa8 s.regs.a s.flags = (r, ⟨isZero r, s.flags.n, false, hi⟩) := daa8_eq _ _
  refine ⟨((s.setReg .a r).setFlags ⟨isZero r, s.flags.n, false, hi⟩).cost 4, ?_, rfl,
    wrote8_setFlags (sameCpu_refl s) .a r _ 4, flagsAre_setFlags _ _ 4, rfl⟩
  change decimalAdjust s = _
  rw [decimalAdjust, show s.reg .a = s.regs.a from rfl, he]

/-- Settles O15: each operation and then DAA on values (`daa_after_alu`), which is the arithmetic of two digits
(`daa8_add8_bcd`, `daa8_sub8_bcd`). -/
theorem decimalArithmetic : Obligations.DecimalArithmetic := by
  intro x y s t u hx hy ha hu
  have run := fun op hw (ht : exec (Instr.aluN op (bcd y)) s = .next t) => ha ▸ daa_after_alu hw ht hu
  refine ⟨fun ht => ?_, fun ht => ?_, fun ht => ?_, fun ht => ?_⟩
  · obtain ⟨hr, hc⟩ := run .add rfl ht
    obtain ⟨hv, hf⟩ := daa8_add8_bcd hx hy false
    exact ⟨hr.trans hv, hc.trans hf⟩
  · obtain ⟨hr, hc⟩ := run .adc rfl ht
    obtain ⟨hv, hf⟩ := daa8_add8_bcd hx hy s.flags.c
    exact ⟨hr.trans hv, hc.trans hf⟩
  · obtain ⟨hr, hc⟩ := run .sub rfl ht
    obtain ⟨hv, hf⟩ := daa8_sub8_bcd hx hy false
    exact ⟨hr.trans (hv.trans (congrArg bcd (Nat.add_mod_right ..))), hc.trans hf⟩
  · obtain ⟨hr, hc⟩ := run .sbc rfl ht
    obtain ⟨hv, hf⟩ := daa8_sub8_bcd hx hy s.flags.c
    exact ⟨hr.trans hv, hc.trans hf⟩

/-- Settles O16: new flags, and for CPL a write of A before them. -/
theorem accumulatorFlags : Obligations.AccumulatorFlags := fun s =>
  ⟨⟨_, rfl, rfl, wrote8_setFlags (sameCpu_refl s) .a _ _ 4, flagsAre_setFlags _ _ 4, rfl⟩,
    ⟨_, rfl, rfl, keptRegs_setFlags s _ 4, flagsAre_setFlags s _ 4, rfl⟩,
    ⟨_, rfl, rfl, keptRegs_setFlags s _ 4, flagsAre_setFlags s _ 4, rfl⟩⟩

end Sys2Proof.Machine

/-! PROOFS of O18 and O17 (42_alu16). The rows over the four pairs name their shared operation (`incPair`, `decPair`,
`addHlPair`). Every row writes one pair (`wrote16_setReg16`), and the additions then write new flags over it
(`wrote16_setFlags`). -/

namespace Sys2Proof.Machine

section

variable (s : State)

/-! ### The operation of each row -/

theorem exec_incR16 (rr : Reg16) : exec (Instr.incR16 rr) s = incPair rr s := by cases rr <;> rfl

theorem exec_decR16 (rr : Reg16) : exec (Instr.decR16 rr) s = decPair rr s := by cases rr <;> rfl

theorem exec_addHlR16 (rr : Reg16) : exec (Instr.addHlR16 rr) s = addHlPair rr s := by cases rr <;> rfl

/-! ### Flags written after a pair (R22, R25) -/

@[simp] theorem reg16_setFlags (q : Reg16) (g : Flags) : (s.setFlags g).reg16 q = s.reg16 q := by cases q <;> rfl

theorem wrote16_setFlags {u : State} (h : sameCpu s u) (rr : Reg16) (v : Word) (g : Flags) (n : Nat) :
    wrote16 s (((u.setReg16 rr v).setFlags g).cost n) rr v := by
  obtain ⟨hq, ha, hpc⟩ := wrote16_setReg16 s h rr v n
  exact ⟨fun q => (reg16_setFlags _ q g).trans (hq q), ha, hpc⟩

end

/-! ### The obligations -/

/-- Settles O18: each row writes its pair and then the flags; `addHl16` and `addSpE8` give both as the rules state
them. -/
theorem pairAddition : Obligations.PairAddition := by
  intro s
  have hs := sameCpu_refl s
  refine ⟨fun rr => ?_, fun e => ⟨?_, ?_⟩⟩
  · exact ⟨_, exec_addHlR16 s rr, rfl, wrote16_setFlags s hs .hl _ _ 8, flagsAre_setFlags _ _ 8, rfl⟩
  · exact ⟨_, rfl, rfl, wrote16_setFlags s hs .sp _ _ 16, flagsAre_setFlags _ _ 16, rfl⟩
  · exact ⟨_, rfl, rfl, wrote16_setFlags s hs .hl _ _ 12, flagsAre_setFlags _ _ 12, rfl⟩

/-- Settles O17: each row writes its pair alone, and a write of a pair keeps F (`f_setReg16`). -/
theorem incDecPair : Obligations.IncDecPair := fun rr s =>
  have hs := sameCpu_refl s
  ⟨⟨_, exec_incR16 s rr, only_setReg16 s rr _ 8, wrote16_setReg16 s hs rr _ 8, f_setReg16 s rr _, rfl⟩,
    ⟨_, exec_decR16 s rr, only_setReg16 s rr _ 8, wrote16_setReg16 s hs rr _ 8, f_setReg16 s rr _, rfl⟩⟩

end Sys2Proof.Machine

/-! PROOFS of O19 to O21 (43_bitops). The results of the rotates and shifts are settled on values first: shifts written
as joins of bit fields are the rearrangements that the rules name (`rotResult_eq`), and RES and SET are read bit by bit.
The instructions then differ only in the write back to their operand: with new flags (`modify_flags`) or with F kept
(`modify_keeps_f`). -/

namespace Sys2Proof.Machine

section

/-! ### Rotates and shifts of a byte (R170 to R181) -/

theorem carryByte_append (c : Bool) : carryByte c = 0#7 ++ BitVec.ofBool c := by cases c <;> rfl

theorem carryByte_shiftLeft (c : Bool) : carryByte c <<< 7 = BitVec.ofBool c ++ 0#7 := by cases c <;> rfl

theorem getElem_carryByte (c : Bool) {i : Nat} (hi : i < 8) : (carryByte c)[i] = (decide (i = 0) && c) := by
  cases c <;> simp [carryByte]

theorem carryByte_bit7 (v : Byte) : carryByte (v.getLsbD 7) = v >>> 7 := by
  ext i hi
  rw [getElem_carryByte, BitVec.getElem_ushiftRight]
  cases i with
  | zero => rfl
  | succ i => exact (BitVec.getLsbD_of_ge v _ (by omega)).symm

theorem carryByte_bit0 (v : Byte) : carryByte (v.getLsbD 0) <<< 7 = v <<< 7 := by
  ext i hi
  rw [BitVec.getElem_shiftLeft, BitVec.getElem_shiftLeft, getElem_carryByte]
  obtain hi | rfl : i < 7 ∨ i = 7 := by omega
  · simp [hi]
  · rfl

/-- The low bits that a shift left clears are free for another field. -/
theorem append_zero_or {m n : Nat} (x : BitVec m) (y : BitVec n) : (x ++ 0#n) ||| (0#m ++ y) = x ++ y := by
  rw [BitVec.or_append, BitVec.or_zero, BitVec.zero_or]

theorem shiftLeft_one (v : Byte) : v <<< 1 = v.extractLsb' 0 7 ++ 0#1 := BitVec.shiftLeft_eq_concat_of_lt (by decide)

theorem shiftRight_one (v : Byte) : v >>> 1 = 0#1 ++ v.extractLsb' 1 7 :=
  BitVec.ushiftRight_eq_extractLsb'_of_lt (by decide)

theorem swapNibbles (v : Byte) : v <<< 4 ||| v >>> 4 = v.extractLsb' 0 4 ++ v.extractLsb' 4 4 := by
  have hhi : v <<< 4 = v.extractLsb' 0 4 ++ 0#4 := BitVec.shiftLeft_eq_concat_of_lt (by decide)
  have hlo : v >>> 4 = 0#4 ++ v.extractLsb' 4 4 := BitVec.ushiftRight_eq_extractLsb'_of_lt (by decide)
  rw [hhi, hlo]
  exact append_zero_or ..

/-- R179: bit 7 put back after a shift right is the sign bit repeated. -/
theorem shiftRight_keepSign (v : Byte) : v >>> 1 ||| v &&& 0x80#8 = v.sshiftRight 1 := by
  ext i hi
  rw [show 0x80#8 = BitVec.twoPow 8 7 from rfl, BitVec.getElem_or, BitVec.getElem_and, BitVec.getElem_twoPow,
    BitVec.getElem_ushiftRight, BitVec.getElem_sshiftRight]
  obtain hi | rfl : i < 7 ∨ i = 7 := by omega
  · simp [Nat.ne_of_lt hi, show 1 + i < 8 by omega]
  · simp [BitVec.msb_eq_getLsbD_last]

theorem rotResult_eq (op : Rot) (v : Byte) (c : Bool) : rotResult op v c = rotValue op v c := by
  cases op with
  | rlc => rw [rotResult, rotValue, carryByte_bit7, BitVec.rotateLeft_def]
  | rrc => rw [rotResult, rotValue, carryByte_bit0, BitVec.rotateRight_def]
  | rl =>
    rw [rotResult, shiftLeft_one, carryByte_append]
    exact append_zero_or ..
  | rr =>
    rw [rotResult, shiftRight_one, carryByte_shiftLeft, BitVec.or_comm]
    exact append_zero_or ..
  | sla => exact shiftLeft_one v
  | sra => exact shiftRight_keepSign v
  | swap => exact swapNibbles v
  | srl => exact shiftRight_one v

theorem rotCarry_eq (op : Rot) (v : Byte) : rotCarry op v = rotOut op v := by cases op <;> rfl

/-! ### One bit of a byte (R183, R184) -/

theorem getLsbD_resetBit (b : Fin 8) (v : Byte) {k : Nat} (hk : k < 8) :
    (resetBit b v).getLsbD k = (v.getLsbD k && decide (k ≠ b.val)) := by
  rw [resetBit, ← BitVec.twoPow_eq, BitVec.getLsbD_and, BitVec.getLsbD_not, BitVec.getLsbD_twoPow]
  simp [hk, eq_comm]

theorem getLsbD_setBit (b : Fin 8) (v : Byte) (k : Nat) :
    (setBit b v).getLsbD k = (v.getLsbD k || decide (k = b.val)) := by
  rw [setBit, ← BitVec.twoPow_eq, BitVec.getLsbD_or, BitVec.getLsbD_twoPow]
  simp [eq_comm]

/-! ### The operations -/

variable {s : State}

theorem exec_rotA {i : Instr} {op : Rot}
    (h : (i = .rlca ∧ op = .rlc) ∨ (i = .rrca ∧ op = .rrc) ∨ (i = .rla ∧ op = .rl) ∨ (i = .rra ∧ op = .rr)) :
    exec i s = rotateA op s := by
  obtain ⟨rfl, rfl⟩ | ⟨rfl, rfl⟩ | ⟨rfl, rfl⟩ | ⟨rfl, rfl⟩ := h <;> rfl

theorem rotateA_eq (op : Rot) : rotateA op s =
    .next (((s.setReg .a (rotValue op s.regs.a s.flags.c)).setFlags
      ⟨false, false, false, rotOut op s.regs.a⟩).cost 4) := by
  rw [rotateA, rotA8, rotResult_eq, rotCarry_eq]
  rfl

theorem rotateOperand_eq (op : Rot) (r : Operand8) : rotateOperand op r s =
    let w := rotValue op (operandValue r s) s.flags.c
    andThen (set8 r w (operandState r s)) fun t =>
      .next ((t.setFlags ⟨isZero w, false, false, rotOut op (operandValue r s)⟩).cost (costOf r 8 16)) := by
  rw [← rotResult_eq, ← rotCarry_eq, rotateOperand, get8_eq, ← flags_operandState s r]
  rfl

theorem testBit_eq (b : Fin 8) (r : Operand8) : testBit b r s =
    .next (((operandState r s).setFlags (bitFlags b (operandValue r s) s.flags)).cost (costOf r 8 12)) := by
  rw [testBit, get8_eq, ← flags_operandState s r]

theorem resetBitOf_eq (b : Fin 8) (r : Operand8) : resetBitOf b r s =
    andThen (set8 r (resetBit b (operandValue r s)) (operandState r s)) fun t => .next (t.cost (costOf r 8 16)) := by
  rw [resetBitOf, get8_eq]

theorem setBitOf_eq (b : Fin 8) (r : Operand8) : setBitOf b r s =
    andThen (set8 r (setBit b (operandValue r s)) (operandState r s)) fun t => .next (t.cost (costOf r 8 16)) := by
  rw [setBitOf, get8_eq]

/-! ### A write back that keeps F -/

theorem f_set8 {r : Operand8} {v : Byte} {w : State} (h : set8 r v (operandState r s) = .next w) :
    w.regs.f = s.regs.f := by
  cases r with
  | reg q =>
    cases h
    exact f_setReg s q v
  | atHL =>
    obtain ⟨hc, -⟩ := memWrite_keeps _ h
    exact (f_of_sameCpu hc).trans (f_of_sameCpu (sameCpu_noteRead s s.hl))

/-- R83: a write back to an r8 operand and no new flags. -/
theorem modify_keeps_f {r : Operand8} (v : Byte) (n : Nat) (h : mayWriteOperand r s = true) :
    ∃ t, (andThen (set8 r v (operandState r s)) fun w => .next (w.cost n)) = .next t ∧
      operandWritten r v s t ∧ t.regs.f = s.regs.f ∧ t.out.cycles = n := by
  obtain ⟨w, hw, hk⟩ := set8_written v h
  have hf := f_set8 hw
  exact ⟨w.cost n, by rw [hw, andThen_next], hk _ rfl (keptRegs_of_sameCpu (sameCpu_refl w)), hf, rfl⟩

end

/-! ### The obligations -/

/-- Settles O19: A is written with the bits rearranged (`rotateA_eq`), and then the flags, Z among them, as constants
but for the bit moved out. -/
theorem rotateAccumulator : Obligations.RotateAccumulator := by
  intro s i op h
  exact ⟨_, (exec_rotA h).trans (rotateA_eq op), rfl, wrote8_setFlags (sameCpu_refl s) .a _ _ 4,
    flagsAre_setFlags _ _ 4, rfl⟩

/-- Settles O20: one read of the operand, then one write back and new flags (`modify_flags`). (`rotateOperand` alone is
the model's function.) -/
theorem rotateOperand_holds : Obligations.RotateOperand := by
  intro op r s h w
  rw [exec_rotR, rotateOperand_eq, ← costOf_eq]
  exact modify_flags w ⟨isZero w, false, false, rotOut op (operandValue r s)⟩ _ h

/-- Settles O21: BIT is new flags over the state after the read; RES and SET are one write back that keeps F
(`modify_keeps_f`), of the byte whose bits `getLsbD_resetBit` and `getLsbD_setBit` give. -/
theorem singleBits : Obligations.SingleBits := by
  intro b r s
  rw [exec_bitR, exec_resR, exec_setR, testBit_eq, resetBitOf_eq, setBitOf_eq, ← costOf_eq, ← costOf_eq]
  refine ⟨⟨_, rfl, rfl, ?_, flagsAre_setFlags _ _ _, rfl, memoryKept_operandState rfl⟩, fun h => ⟨?_, ?_⟩⟩
  · exact keptRegs_trans (keptRegs_of_sameCpu (sameCpu_operandState s r)) (keptRegs_setFlags _ _ _)
  · obtain ⟨t, ht, hw, hk⟩ := modify_keeps_f (resetBit b (operandValue r s)) (costOf r 8 16) h
    exact ⟨t, _, ht, hw, fun _ => getLsbD_resetBit b _, hk⟩
  · obtain ⟨t, ht, hw, hk⟩ := modify_keeps_f (setBit b (operandValue r s)) (costOf r 8 16) h
    exact ⟨t, _, ht, hw, fun k _ => getLsbD_setBit b _ k, hk⟩

end Sys2Proof.Machine

/-! PROOFS of O23, O24 and O22 (44_control). Three operations stand behind every row: `jump`, `call` and `ret`. What
each does is stated once (`goesTo_jump`, `callsTo_call`, `returnsFrom_ret`). A conditional row whose condition is false
is a jump to the address after it (R93), so that the taken and the untaken case are both one of the three. -/

namespace Sys2Proof.Machine

section

variable (s : State)

/-! ### The operation of each row -/

/-- R86, R190: a condition is a bit of F. -/
theorem condHolds_flags (cc : Cond) : condHolds cc s.flags = condTrue cc s := by cases cc <;> rfl

/-- R192: both cases are a jump. -/
theorem exec_jpCc (cc : Cond) (nn : Word) : exec (Instr.jpCc cc nn) s =
    jump (if condTrue cc s then nn else s.pc) (if condTrue cc s then 16 else 12) s := by
  have h : exec (Instr.jpCc cc nn) s = jumpIf cc nn s := by cases cc <;> rfl
  rw [h, jumpIf, condHolds_flags]
  split <;> rfl

/-- R195: both cases are a jump. -/
theorem exec_jrCc (cc : Cond) (e : Byte) : exec (Instr.jrCc cc e) s =
    jump (if condTrue cc s then s.pc + e.signExtend 16 else s.pc) (if condTrue cc s then 12 else 8) s := by
  have h : exec (Instr.jrCc cc e) s = jumpRelIf cc e s := by cases cc <;> rfl
  rw [h, jumpRelIf, condHolds_flags]
  split <;> rfl

/-- R197. -/
theorem exec_callCc (cc : Cond) (nn : Word) : exec (Instr.callCc cc nn) s =
    if condTrue cc s then call nn 24 s else jump s.pc 12 s := by
  rw [← condHolds_flags]
  cases cc <;> rfl

/-- R199. -/
theorem exec_retCc (cc : Cond) : exec (Instr.retCc cc) s =
    if condTrue cc s then ret 20 s else jump s.pc 8 s := by
  rw [← condHolds_flags]
  cases cc <;> rfl

/-- R88, R201. -/
theorem exec_rst (y : Fin 8) : exec (Instr.rst y) s = call (BitVec.ofNat 16 (8 * y.val)) 16 s := by
  have h : exec (Instr.rst y) s = call (restartVector y) 16 s := by fin_cases y <;> rfl
  rw [h, restartVector, Nat.mul_comm]

/-! ### The three operations -/

theorem ret_eq (n : Nat) : ret n s = .next (State.cost { popped s with pc := popWord s } n) := by
  rw [ret, pop16_eq]
  rfl

/-- R200: a return that also sets IME and stops the countdown. -/
theorem returnInterrupt_eq : returnInterrupt s =
    .next (State.cost { popped s with pc := popWord s, irq := { s.irq with ime := true, eiDelay := 0 } } 16) := by
  obtain ⟨-, -, -, -, hirq, -⟩ := afterPop_keeps s
  rw [returnInterrupt, returnFromInterrupt, pop16_eq, ← hirq]
  rfl

variable {s} {i : Instr} {n : Nat}

theorem goesTo_jump {a : Word} (h : exec i s = jump a n s) : goesTo i s a n := ⟨_, h, rfl, rfl, rfl, rfl, rfl⟩

/-- R196: the push of the return address (`push16_completes`, `push16_refused`), then a write of PC. -/
theorem callsTo_call {a : Word} (h : exec i s = call a n s) : callsTo i s a n := by
  rw [callsTo, h, call]
  refine ⟨fun hm => ?_, fun hm => by rw [push16_refused s _ hm]; rfl⟩
  obtain ⟨t, ht, hp, -⟩ := push16_completes s s.pc hm
  exact ⟨State.cost { t with pc := a } n, by rw [ht, andThen_next], pushed_onlyRegisters hp rfl rfl rfl, rfl, rfl⟩

/-- R198: the two reads of a pop leave the registers and memory as they were. -/
theorem returnsFrom_ret (h : exec i s = ret n s) : returnsFrom i s n := by
  obtain ⟨hregs, -⟩ := afterPop_keeps s
  exact ⟨_, h.trans (ret_eq s n), rfl, hregs, rfl, rfl, rfl, memoryKept_pop s rfl⟩

end

/-! ### The obligations -/

/-- Settles O23: a taken call and a restart are `call`, a call not taken is a jump to the next instruction. -/
theorem calls : Obligations.Calls := fun s =>
  ⟨fun _ => callsTo_call rfl,
    fun cc nn => ⟨fun h => callsTo_call ((exec_callCc s cc nn).trans (if_pos h)),
      fun h => goesTo_jump ((exec_callCc s cc nn).trans (if_neg (ne_true_of_eq_false h)))⟩,
    fun y => callsTo_call (exec_rst s y)⟩

/-- Settles O24: a taken return is `ret`, one not taken is a jump to the next instruction. RETI is a return with the
interrupt state written out (`returnInterrupt_eq`), which no byte of memory shows (`opSpec_returnInterrupt`). -/
theorem returns : Obligations.Returns := by
  intro s
  refine ⟨returnsFrom_ret rfl, fun cc => ⟨fun h => ?_, fun h => ?_⟩, ?_⟩
  · exact returnsFrom_ret ((exec_retCc s cc).trans (if_pos h))
  · exact goesTo_jump ((exec_retCc s cc).trans (if_neg (ne_true_of_eq_false h)))
  · have he := returnInterrupt_eq s
    obtain ⟨hregs, -⟩ := afterPop_keeps s
    obtain ⟨hmem, -⟩ := (opSpec_returnInterrupt s).next _ he
    exact ⟨_, he, rfl, rfl, hregs, rfl, rfl, rfl, hmem⟩

/-- Settles O22: every row is `jump` (`exec_jpCc`, `exec_jrCc` for the conditional ones). -/
theorem jumps : Obligations.Jumps := fun s =>
  ⟨fun _ => goesTo_jump rfl, fun cc nn => goesTo_jump (exec_jpCc s cc nn), goesTo_jump rfl,
    fun _ => goesTo_jump rfl, fun cc e => goesTo_jump (exec_jrCc s cc e)⟩

end Sys2Proof.Machine

/-! PROOFS of O26, O27 and O25 (45_system). `refusedBack_of_step` and `settled_of_fault` say once what a step that is
refused or that faults leaves the caller with. Byte 0 fixes the instruction that a fetch reads, with the halt bug
pending or not (`fetchInstr_fst`), and so STOP and the illegal bytes are known from the byte at `pc`. -/

namespace Sys2Proof.Machine

section

variable (s : State)

/-! ### Byte 0 of a fetch -/

/-- R14, R232: a fetch reads at `pc`, whether or not it moves `pc`. -/
theorem fetchByte_fst : (fetchByte s).1 = s.readByte s.pc := by
  cases h : s.irq.hbPending with
  | false => rw [fetchByte_eq s h]
  | true => rw [fetchByte_haltBug s h]

/-- R81: the instruction fetched is one whose byte 0 is the byte at `pc`. -/
theorem fetchInstr_fst : ∃ b1 b2, (fetchInstr s).1 = decodeBytes (s.readByte s.pc) b1 b2 := by
  rw [← fetchByte_fst]
  unfold fetchInstr
  dsimp only
  split
  · exact ⟨_, _, rfl⟩
  · exact ⟨_, _, rfl⟩
  · exact ⟨_, _, rfl⟩

theorem fetchState_readByte (a : Word) : (fetchState s).readByte a = (wake (beginStep s)).readByte a := rfl

theorem fetchInstr_fetchState {b : Byte} (h : (wake (beginStep s)).readByte s.pc = b) :
    ∃ b1 b2, (fetchInstr (fetchState s)).1 = decodeBytes b b1 b2 := by
  have hf := fetchInstr_fst (fetchState s)
  rwa [fetchState_pc, fetchState_readByte, h] at hf

/-! ### Steps that end in a refusal or a fault -/

variable {s}

/-- R15, R235: what a refused step leaves the caller with. -/
theorem refusedBack_of_step {r : Refusal} (h : step s = .refused r) : refusedBack s r := by
  obtain ⟨-, -, hpc, -, -, -, -, -, -, -, -, -, -, hbf, -⟩ := beginStep_keeps s
  have hs := settle_refused s h
  have hf : s.fault = none := by
    cases hf : s.fault with
    | none => rfl
    | some f =>
      rw [step_of_fault s hf] at h
      cases h
  refine ⟨h, hs, ?_, ?_⟩ <;> rw [hs]
  · exact hpc
  · exact step_of_refused _ (hbf.trans hf) rfl

/-- R234: what a step that faults leaves the caller with. -/
theorem settled_of_fault {f : Fault} (h : step s = .fault f) :
    s.settle = { beginStep s with fault := some f } ∧ s.settle.pc = s.pc ∧
    step s.settle = .fault f := by
  obtain ⟨-, -, hpc, -⟩ := beginStep_keeps s
  have hs := settle_fault s h
  refine ⟨hs, ?_, ?_⟩ <;> rw [hs]
  · exact hpc
  · exact step_of_fault _ rfl

/-- A step is refused where the instruction it fetches is. -/
theorem refusedBack_of_exec {r : Refusal} (hp : performs s = true)
    (h : exec (fetchInstr (fetchState s)).1 (fetchInstr (fetchState s)).2 = .refused r) : refusedBack s r := by
  refine refusedBack_of_step ?_
  rw [step_of_performs s hp, h]
  rfl

/-- R220: with IME set and a source pending, an unmarked step services. -/
theorem step_of_service (hf : s.fault = none) (hr : s.refused = none) (hm : s.irq.ime = true)
    (hp : (beginStep s).pending ≠ 0) :
    step s = andThen (service (wake (beginStep s))) fun t => .next (advance t.out.cycles t) := by
  obtain ⟨f, he, -⟩ | ⟨r, -, he, -⟩ | ⟨-, -, -, hn, -⟩ | ⟨-, -, -, -, hst⟩ | ⟨hperf, -⟩ := step_cases s
  · simp [hf] at he
  · simp [hr] at he
  · exact absurd hn hp
  · exact hst
  · simp only [performs, hm, decide_eq_true hp, Bool.and_self, Bool.not_true, Bool.and_false,
      Bool.false_eq_true] at hperf

/-- R228, R62: servicing is refused where its push is. -/
theorem service_refused (hp : s.pending ≠ 0) (h : mayPush s = false) : service s = .refused .dmaUnmodelled := by
  obtain ⟨i, hi⟩ := lowestBit_exists hp
  simp only [service, State.pendingInterrupt, hi]
  rw [push16_refused { s with irq := { s.irq with hbPending := false } } _ h]
  rfl

/-- The requests at the start of a step do not decide whether a push is refused. -/
theorem mayPush_wake_beginStep : mayPush (wake (beginStep s)) = mayPush s := by
  obtain ⟨-, hsp, -, -, -, -, -, -, -, -, -, hparams, -⟩ := beginStep_keeps s
  simp [mayPush, mayWrite, wake, hsp, hparams]

/-! ### The illegal bytes -/

theorem mem_illegalBytes {i : Instr} {b : Byte} (h : illegalByte i = some b) : b ∈ illegalBytes := by
  unfold illegalByte at h
  split at h <;> cases h <;> decide

/-- R91: an illegal byte is an instruction of one byte. -/
theorem encode_illegal {i : Instr} {b : Byte} (h : illegalByte i = some b) : encode i = [b] := by
  unfold illegalByte at h
  split at h <;> cases h <;> rfl

/-! ### The interrupt and execution control -/

variable (s)

/-- R221: a source is pending where its bits of IE and IF are both set. -/
theorem pending_ne_zero_iff :
    s.pending ≠ 0 ↔ ∃ i : Fin 5, s.irq.ie.getLsbD i = true ∧ s.irq.ifr.getLsbD i = true := by
  have hbit (i : Fin 5) : s.pending.getLsbD i = (s.irq.ie.getLsbD i && s.irq.ifr.getLsbD i) := by
    simp [State.pending]
  constructor
  · intro h
    obtain ⟨i, hi⟩ := lowestBit_exists h
    have hi := List.find?_some hi
    rw [hbit, Bool.and_eq_true] at hi
    exact ⟨i, hi⟩
  · rintro ⟨i, hie, hif⟩ h
    have hi := hbit i
    rw [h, hie, hif] at hi
    simp at hi

/-- R211, R232, with the condition on the bits of IE and IF. -/
theorem haltCpu_eq : haltCpu s = .next (State.cost { s with irq :=
    (if s.params.haltBug = true ∧ s.irq.ime = false ∧
        ∃ i : Fin 5, s.irq.ie.getLsbD i = true ∧ s.irq.ifr.getLsbD i = true
      then { s.irq with hbPending := true } else { s.irq with halted := true }) } 4) := by
  simp only [haltCpu, Bool.and_eq_true, Bool.not_eq_true', decide_eq_true_eq, and_assoc, pending_ne_zero_iff]
  split <;> rfl

/-- R214, R226. -/
theorem enableInterrupts_eq : enableInterrupts s = .next (State.cost { s with irq :=
    (if s.irq.ime = false ∧ s.irq.eiDelay = 0 then { s.irq with eiDelay := 2 } else s.irq) } 4) := by
  unfold enableInterrupts State.requestDelayedEnable
  split <;> rfl

variable {s}

theorem systemEffect_of_exec {i : Instr} {q : Irq} (h : exec i s = .next (State.cost { s with irq := q } 4)) :
    systemEffect i s q := ⟨_, h, rfl, rfl, rfl, rfl, rfl⟩

end

/-! ### The obligations -/

/-- Settles O26: STOP (`exec_isStop`), a store that is not allowed (`everyInstructionCompletes`) and a push of servicing
(`service_refused`) are refused, and so then is the step. -/
theorem stopRefused : Obligations.StopRefused := by
  refine ⟨fun _ _ => rfl, fun s => ⟨fun hp hb => ?_, ?_, fun hf hr hm hp hw => ?_⟩⟩
  · obtain ⟨b1, b2, hi⟩ := fetchInstr_fetchState s hb
    have hstop : isStop (fetchInstr (fetchState s)).1 = true := hi ▸ rfl
    exact refusedBack_of_exec hp (exec_isStop _ hstop).1
  · intro hp f hw
    obtain ⟨-, -, hrefused⟩ := everyInstructionCompletes f.1 f.2
    exact refusedBack_of_exec hp ((hrefused _).mpr (.inr ⟨hw, rfl⟩))
  · refine refusedBack_of_step ?_
    rw [step_of_service hf hr hm hp, service_refused (s := wake (beginStep s)) hp (mayPush_wake_beginStep.trans hw)]
    rfl

/-- Settles O27: byte 0 fixes the instruction fetched (`illegalByte_decodeBytes`), its meaning is the fault
(`exec_illegal`), and the fetch keeps the address it began at (`kept_fetchInstr`). -/
theorem illegalOpcodes : Obligations.IllegalOpcodes := by
  refine fun i b h => ⟨encode_illegal h, fun s => (exec_illegal s h).1, fun s hp hb => ?_⟩
  obtain ⟨b1, b2, hi⟩ := fetchInstr_fetchState s hb
  have hill := illegalByte_decodeBytes (mem_illegalBytes h) b1 b2
  have hexec := (exec_illegal (fetchInstr (fetchState s)).2 (hi ▸ hill)).1
  rw [(kept_fetchInstr (fetchState s)).start] at hexec
  have hst : step s = .fault (.decodeError s.pc b) := by
    rw [step_of_performs s hp, hexec]
    rfl
  exact ⟨hst, settled_of_fault hst⟩

/-- Settles O25: each instruction takes 4 cycles and writes the interrupt state only; EI and HALT choose what they write
(`enableInterrupts_eq`, `haltCpu_eq`). -/
theorem systemInstructions : Obligations.SystemInstructions := fun s =>
  ⟨systemEffect_of_exec rfl, systemEffect_of_exec rfl,
    systemEffect_of_exec (enableInterrupts_eq s), systemEffect_of_exec (haltCpu_eq s)⟩

end Sys2Proof.Machine

/-! PROOFS of O32, O34, O35, O50, O51, O52, O54 to O57, O36 and O45 (60_exceptions). A tick has one of four events
(`tick_cases`), and what it does to the position, the requests, the selection and the frame buffer is read off each.
For the pictures, video RAM and OAM are first put on the bus (`toNat_planePixel`, `spriteByte_eq`), and the sprites are
then a search from the end of the selection (`spritePixel_eq`). -/

namespace Sys2Proof.Machine

section

variable (s : State)

/-! ### Requests (R222, R241) -/

/-- R222: raising a request sets its own bit. -/
theorem getLsbD_raiseIf (b : Bool) (i : Nat) {j : Nat} (hj : j < 5) :
    (s.raiseIf b i).irq.ifr.getLsbD j = (s.irq.ifr.getLsbD j || (b && decide (j = i))) := by
  cases b with
  | false => simp [State.raiseIf]
  | true =>
    have hbit : (1#5 <<< i).getLsbD j = decide (j = i) := by
      refine (BitVec.getLsbD_twoPow i j).trans ?_
      rw [← Bool.decide_and]
      exact decide_eq_decide.mpr (by omega)
    simp only [State.raiseIf, State.raise, if_true, BitVec.getLsbD_or, hbit, Bool.true_and]

theorem beginStep_nil (h : s.env = []) : beginStep s = clearOut s := by
  unfold beginStep applyRequests
  rw [h]

/-- R241: the start of a step raises the requests of the next set. -/
theorem beginStep_cons {e : EnvRequest} {r : List EnvRequest} (h : s.env = e :: r) :
    beginStep s = clearOut ((({ s with env := r }.raiseIf e.timer 2).raiseIf e.serial 3).raiseIf e.joypad 4) := by
  unfold beginStep applyRequests
  rw [h]

/-! ### The halted state (R230, R231) -/

/-- The requests at the start of a step do not look at the halted state. -/
theorem beginStep_wake : beginStep (wake s) = wake (beginStep s) := by
  cases h : s.env with
  | nil =>
    rw [beginStep_nil s h, beginStep_nil (wake s) h]
    rfl
  | cons e r =>
    rw [beginStep_cons s h, beginStep_cons (wake s) h]
    obtain ⟨x, y, z⟩ := e
    cases x <;> cases y <;> cases z <;> rfl

/-- R231: a pending source ends the halted state in the step itself. -/
theorem cpuStep_wake (h : s.pending ≠ 0) : cpuStep (wake s) = cpuStep s := by
  have hn : (wake s).pending = s.pending := rfl
  unfold cpuStep
  simp only [hn, decide_eq_false h, Bool.and_false]
  rfl

theorem pending_eq_zero (h : ∀ i < 5, (s.irq.ie.getLsbD i && s.irq.ifr.getLsbD i) = false) : s.pending = 0 := by
  by_contra hp
  obtain ⟨i, he, hf⟩ := (pending_ne_zero_iff s).mp hp
  have hi := h i i.isLt
  rw [he, hf] at hi
  cases hi

variable {s} in
/-- R230: with no source pending, an unmarked halted step idles. -/
theorem step_of_idle (hf : s.fault = none) (hr : s.refused = none) (hh : s.irq.halted = true)
    (hp : (beginStep s).pending = 0) : step s = .next (advance 4 ((beginStep s).cost 4)) := by
  obtain ⟨f, he, -⟩ | ⟨r, -, he, -⟩ | ⟨-, -, -, -, hst⟩ | ⟨-, -, -, hn, -⟩ | ⟨hperf, -⟩ := step_cases s
  · simp [hf] at he
  · simp [hr] at he
  · exact hst
  · exact absurd hp hn
  · simp [performs, hh, hp] at hperf

theorem sameCpu_beginStep : sameCpu s (beginStep s) := by
  obtain ⟨hr, hsp, hpc, hst, -, -, -, -, -, -, -, -, -, -, -, -, -, hi⟩ := beginStep_keeps s
  rw [sameCpu, hi]
  exact ⟨hr, hsp, hpc, hst, rfl, rfl, rfl, rfl⟩

/-! ### Taking an interrupt (R223, R228) -/

/-- R223: the source taken is the lowest whose bits of IE and IF are both set. -/
theorem pendingInterrupt_eq {i : Nat} (hi : i < 5)
    (h : ∀ j ≤ i, (s.irq.ie.getLsbD j && s.irq.ifr.getLsbD j) = decide (j = i)) :
    s.pendingInterrupt = some ⟨i, hi⟩ := by
  have hbit (j : Fin 5) (hj : j.val ≤ i) : s.pending.getLsbD j = decide (j.val = i) := by
    rw [← h j hj]
    simp [State.pending]
  unfold State.pendingInterrupt lowestBit
  rw [List.find?_eq_some_iff_getElem]
  refine ⟨(hbit _ le_rfl).trans (decide_eq_true rfl), i, by simpa using hi, by simp, fun j hj => ?_⟩
  have hlow : s.pending.getLsbD j = false := (hbit ⟨j, by omega⟩ hj.le).trans (decide_eq_false hj.ne)
  simp only [List.getElem_finRange, Fin.val_cast, hlow, Bool.not_false]

/-- R221: the vectors lie 8 bytes apart from 0x0040. -/
theorem vectorOf_eq (i : Fin 5) : vectorOf i = 0x0040#16 + BitVec.ofNat 16 (8 * i.val) := by
  rw [vectorOf, BitVec.ofNat_mul]

/-- R228: servicing pushes the return address, clears IME and the request, and goes to the vector. -/
theorem service_wake {i : Fin 5} (h : s.pendingInterrupt = some i) :
    service (wake s) = andThen (push16 (if s.irq.hbPending then s.pc - 1 else s.pc) s) fun p =>
      .next { p with
        pc := vectorOf i
        irq := { p.irq with ime := false, halted := false, hbPending := false,
                            ifr := p.irq.ifr &&& ~~~(1#5 <<< i.val) }
        out := { p.out with cycles := 20 } } := by
  have hw : (wake s).pendingInterrupt = some i := h
  unfold service
  simp only [hw]
  change andThen (push16 (if s.irq.hbPending then s.pc - 1 else s.pc)
    { s with irq := { s.irq with halted := false, hbPending := false } }) _ = _
  rw [push16_control]
  cases push16 (if s.irq.hbPending then s.pc - 1 else s.pc) s <;> rfl

/-! ### The events of a tick (R246) -/

/-- The state in which the event of a tick takes place: one dot on. -/
def State.nextDot (s : State) : State := { s with ppu := { s.ppu with dot := s.ppu.dot + 1 } }

/-- R246: the line end, the entries to mode 3 and to mode 0 on a visible line, or no event. -/
theorem tick_cases (hon : s.ppu.lcdc.getLsbD 7 = true) :
    (s.ppu.dot = 455 ∧ tick s = lineEnd s.nextDot) ∨
    (s.ppu.ly.toNat < 144 ∧ s.ppu.dot = 79 ∧ tick s = transferStart s.nextDot) ∨
    (s.ppu.ly.toNat < 144 ∧ s.ppu.dot = 251 ∧ tick s = hBlankStart s.nextDot) ∨
    (s.ppu.dot ≠ 455 ∧ ¬(s.ppu.ly.toNat < 144 ∧ s.ppu.dot = 79) ∧ ¬(s.ppu.ly.toNat < 144 ∧ s.ppu.dot = 251) ∧
      tick s = s.nextDot) := by
  rw [tick_on s hon]
  split_ifs with h1 h2 h3
  · exact .inl ⟨by omega, rfl⟩
  · exact .inr (.inl ⟨h2.1, by omega, rfl⟩)
  · exact .inr (.inr (.inl ⟨h3.1, by omega, rfl⟩))
  · exact .inr (.inr (.inr ⟨by omega, by omega, by omega, rfl⟩))

theorem tick_lcdc : (tick s).ppu.lcdc = s.ppu.lcdc := by
  obtain ⟨h, -⟩ := ppuWrote_registers s (ppuWrote_tick s)
  exact h

/-- R246: a tick moves to the next dot, and from the last one to the next line. -/
theorem tick_line_dot (hon : s.ppu.lcdc.getLsbD 7 = true) :
    (tick s).ppu.ly = (if s.ppu.dot = 455 then nextLine s.ppu.ly else s.ppu.ly) ∧
    (tick s).ppu.dot = (if s.ppu.dot = 455 then 0 else s.ppu.dot + 1) := by
  obtain ⟨hd, ht⟩ | ⟨-, hd, ht⟩ | ⟨-, hd, ht⟩ | ⟨hd, -, -, ht⟩ := tick_cases s hon <;> rw [ht]
  · obtain ⟨hly, hdot, -⟩ := lineEnd_ppu s.nextDot
    rw [hly, hdot, if_pos hd, if_pos hd]
    exact ⟨rfl, rfl⟩
  · rw [transferStart_ppu, if_neg (by omega), if_neg (by omega)]
    exact ⟨rfl, rfl⟩
  · rw [hBlankStart_ppu, if_neg (by omega), if_neg (by omega)]
    exact ⟨rfl, rfl⟩
  · rw [if_neg hd, if_neg hd]
    exact ⟨rfl, rfl⟩

/-! ### The dot of the frame (R245) -/

/-- R245: the dot of the frame, of 154 lines of 456 dots each. -/
def Ppu.frameDot (p : Ppu) : Nat := 456 * p.ly.toNat + p.dot

variable {s}

theorem positionOk_iff (hon : s.ppu.lcdc.getLsbD 7 = true) :
    s.ppu.positionOk = true ↔ s.ppu.dot < 456 ∧ s.ppu.ly.toNat ≤ 153 ∧ s.ppu.mode = modeAt s.ppu.ly s.ppu.dot := by
  simp only [Ppu.positionOk, hon, if_true, Bool.and_eq_true, decide_eq_true_eq, and_assoc]

theorem frameDot_lt (hp : s.ppu.positionOk = true) (hon : s.ppu.lcdc.getLsbD 7 = true) : s.ppu.frameDot < 70224 := by
  obtain ⟨hd, hy, -⟩ := (positionOk_iff hon).mp hp
  simp only [Ppu.frameDot]
  omega

/-- R245, R246: a tick moves by one dot of the frame, which wraps. -/
theorem tick_frameDot (hp : s.ppu.positionOk = true) (hon : s.ppu.lcdc.getLsbD 7 = true) :
    (tick s).ppu.frameDot = (s.ppu.frameDot + 1) % 70224 := by
  obtain ⟨hd, hy, -⟩ := (positionOk_iff hon).mp hp
  obtain ⟨ty, td⟩ := tick_line_dot s hon
  have hn := nextLine_toNat hy
  simp only [Ppu.frameDot, ty, td]
  split
  · rw [hn]
    split <;> omega
  · omega

/-- R245: any number of ticks moves by as many dots of the frame. -/
theorem advance_frameDot (n : Nat) (hp : s.ppu.positionOk = true) (hon : s.ppu.lcdc.getLsbD 7 = true) :
    (advance n s).ppu.positionOk = true ∧ (advance n s).ppu.lcdc = s.ppu.lcdc ∧
    (advance n s).ppu.frameDot = (s.ppu.frameDot + n) % 70224 := by
  induction n generalizing s with
  | zero => exact ⟨hp, rfl, (Nat.mod_eq_of_lt (frameDot_lt hp hon)).symm⟩
  | succ n ih =>
    have hl := tick_lcdc s
    obtain ⟨ap, al, ad⟩ := ih (tick_position s hp) (hl ▸ hon)
    refine ⟨ap, al.trans hl, ad.trans ?_⟩
    rw [tick_frameDot hp hon]
    omega

/-- The dot of the frame determines the line, the dot and the mode. -/
theorem position_unique {t : State} (hs : s.ppu.positionOk = true) (ht : t.ppu.positionOk = true)
    (hon : s.ppu.lcdc.getLsbD 7 = true) (hl : t.ppu.lcdc = s.ppu.lcdc) (hd : t.ppu.frameDot = s.ppu.frameDot) :
    t.ppu.ly = s.ppu.ly ∧ t.ppu.dot = s.ppu.dot ∧ t.ppu.mode = s.ppu.mode := by
  obtain ⟨sd, sy, sm⟩ := (positionOk_iff hon).mp hs
  obtain ⟨td, ty, tm⟩ := (positionOk_iff (hl ▸ hon)).mp ht
  simp only [Ppu.frameDot] at hd
  have hy : t.ppu.ly = s.ppu.ly := BitVec.eq_of_toNat_eq (by omega)
  have hdot : t.ppu.dot = s.ppu.dot := by omega
  exact ⟨hy, hdot, by rw [tm, sm, hy, hdot]⟩

variable (s)

/-! ### What a tick requests and gives out (R249, R250, R258) -/

theorem compareLyc_ppu : (compareLyc s).ppu = { s.ppu with lycEq := decide (s.ppu.ly = s.ppu.lyc) } :=
  raiseIf_ppu _ _ _

theorem compareLyc_out : (compareLyc s).out = s.out := by simp [compareLyc]

/-- R249: a compare requests STAT where it finds LY = LYC and its enable bit is set. -/
theorem compareLyc_ifr {j : Nat} (hj : j < 5) :
    (compareLyc s).irq.ifr.getLsbD j = (s.irq.ifr.getLsbD j ||
      (decide (j = 1) && (s.ppu.statEn.getLsbD 3 && decide (s.ppu.ly = s.ppu.lyc)))) := by
  refine (getLsbD_raiseIf _ _ 1 hj).trans ?_
  rw [Bool.and_comm, Bool.and_comm (decide (s.ppu.ly = s.ppu.lyc))]

/-- R250: the requests at the entries to mode 1 and to mode 2. -/
theorem lineEvent_ifr {j : Nat} (hj : j < 5) :
    (lineEvent s).irq.ifr.getLsbD j = (s.irq.ifr.getLsbD j || (decide (j = 0) && decide (s.ppu.ly = 144#8)) ||
      (decide (j = 1) && (s.ppu.statEn.getLsbD 2 && decide (s.ppu.ly.toNat < 144) ||
        s.ppu.statEn.getLsbD 1 && decide (s.ppu.ly = 144#8)))) := by
  unfold lineEvent
  split
  · next h =>
    have hv : ((s.withMode .vBlank).raise 0).irq.ifr.getLsbD j = (s.irq.ifr.getLsbD j || decide (j = 0)) :=
      (getLsbD_raiseIf (s.withMode .vBlank) true 0 hj).trans (by rw [Bool.true_and]; rfl)
    refine (getLsbD_raiseIf ((s.withMode .vBlank).raise 0) (s.ppu.statEn.getLsbD 1) 1 hj).trans ?_
    simp [hv, h, Bool.and_comm]
  · next h =>
    split
    · next hy =>
      refine (getLsbD_raiseIf (s.withMode .oamScan) (s.ppu.statEn.getLsbD 2) 1 hj).trans ?_
      simp [h, hy, Bool.and_comm]
    · next hy => simp [h, hy]

theorem lineEvent_frame : (lineEvent s).out.frame = if s.ppu.ly = 144#8 then some s.ppu.fb else s.out.frame := by
  unfold lineEvent
  split
  · simp only [snapshot, raiseIf_ppu]
    rfl
  · split <;> simp

/-- R249, R250: the requests of the line end, by the line that it begins. -/
theorem lineEnd_ifr {j : Nat} (hj : j < 5) :
    (lineEnd s).irq.ifr.getLsbD j = (s.irq.ifr.getLsbD j ||
      (decide (j = 0) && decide (nextLine s.ppu.ly = 144#8)) ||
      (decide (j = 1) && (s.ppu.statEn.getLsbD 3 && decide (nextLine s.ppu.ly = s.ppu.lyc) ||
        s.ppu.statEn.getLsbD 2 && decide ((nextLine s.ppu.ly).toNat < 144) ||
        s.ppu.statEn.getLsbD 1 && decide (nextLine s.ppu.ly = 144#8)))) := by
  have hp := compareLyc_ppu { s with ppu := { s.ppu with dot := 0, ly := nextLine s.ppu.ly } }
  rw [lineEnd_eq, lineEvent_ifr _ hj, compareLyc_ifr _ hj, hp]
  simp only [Bool.and_or_distrib_left, Bool.or_assoc]
  ac_rfl

/-- R258: the line end gives out the frame where it begins line 144. -/
theorem lineEnd_frame :
    (lineEnd s).out.frame = if nextLine s.ppu.ly = 144#8 then some s.ppu.fb else s.out.frame := by
  have hp := compareLyc_ppu { s with ppu := { s.ppu with dot := 0, ly := nextLine s.ppu.ly } }
  rw [lineEnd_eq, lineEvent_frame, hp, compareLyc_out]

section
variable (hon : s.ppu.lcdc.getLsbD 7 = true)
include hon

/-- R250: the requests of a tick, by the position that it moves to. -/
theorem tick_ifr {j : Nat} (hj : j < 5) :
    (tick s).irq.ifr.getLsbD j = (s.irq.ifr.getLsbD j ||
      (decide (j = 0) && (decide ((tick s).ppu.dot = 0) && decide ((tick s).ppu.ly = 144#8))) ||
      (decide (j = 1) &&
        (s.ppu.statEn.getLsbD 3 && decide ((tick s).ppu.dot = 0) && decide ((tick s).ppu.ly = s.ppu.lyc) ||
          s.ppu.statEn.getLsbD 2 && decide ((tick s).ppu.dot = 0) && decide ((tick s).ppu.ly.toNat < 144) ||
          s.ppu.statEn.getLsbD 1 && (decide ((tick s).ppu.dot = 0) && decide ((tick s).ppu.ly = 144#8)) ||
          s.ppu.statEn.getLsbD 0 && decide ((tick s).ppu.dot = 252) && decide ((tick s).ppu.ly.toNat < 144)))) := by
  obtain ⟨ty, td⟩ := tick_line_dot s hon
  rw [ty, td]
  obtain ⟨hd, ht⟩ | ⟨-, hd, ht⟩ | ⟨hy, hd, ht⟩ | ⟨hd, -, hn, ht⟩ := tick_cases s hon <;> rw [ht]
  · rw [lineEnd_ifr _ hj]
    simp [hd, State.nextDot]
  · simp [hd, State.nextDot, transferStart, renderLine, State.withMode]
  · refine (getLsbD_raiseIf (s.nextDot.withMode .hBlank) _ 1 hj).trans ?_
    simp [hd, hy, State.nextDot, State.withMode, Bool.and_comm]
  · have h252 : s.ppu.dot = 251 → ¬s.ppu.ly.toNat < 144 := fun h hy => hn ⟨hy, h⟩
    by_cases h : s.ppu.dot = 251
    · simp [State.nextDot, h, h252 h]
    · simp [State.nextDot, h, hd]

/-- R258: a tick gives out the frame at the entry to line 144. -/
theorem tick_out_frame :
    (tick s).out.frame =
      if (tick s).ppu.dot = 0 ∧ (tick s).ppu.ly = 144#8 then some s.ppu.fb else s.out.frame := by
  obtain ⟨ty, td⟩ := tick_line_dot s hon
  rw [ty, td]
  obtain ⟨hd, ht⟩ | ⟨-, hd, ht⟩ | ⟨-, hd, ht⟩ | ⟨hd, -, -, ht⟩ := tick_cases s hon <;> rw [ht]
  · rw [lineEnd_frame]
    simp [hd, State.nextDot]
  · simp [hd, transferStart, renderLine, State.withMode, State.nextDot]
  · simp [hd, hBlankStart, State.withMode, State.nextDot]
  · simp [hd, State.nextDot]

/-- R249: the LY = LYC bit is renewed at each new line. -/
theorem tick_newLine_lycEq (h : (tick s).ppu.dot = 0) :
    (tick s).ppu.lycEq = decide ((tick s).ppu.ly = s.ppu.lyc) := by
  obtain ⟨-, td⟩ := tick_line_dot s hon
  obtain ⟨-, ht⟩ | ⟨-, hd, -⟩ | ⟨-, hd, -⟩ | ⟨hd, -⟩ := tick_cases s hon
  · obtain ⟨hy, -, hc, -⟩ := lineEnd_ppu s.nextDot
    rw [ht, hc, hy]
    rfl
  all_goals
    rw [td, if_neg (by omega)] at h
    cases h

end

/-! ### The OAM scan (R251) -/

section
variable (p : Nat → Bool) (m k : Nat)

/-- The first `k` of the numbers below `m` that satisfy `p`. -/
def firstBelow : List Nat := ((List.range m).filter p).take k

theorem pairwise_filter_range : ((List.range m).filter p).Pairwise (· < ·) := List.pairwise_lt_range.filter _

theorem length_firstBelow : (firstBelow p m k).length = min k ((List.range m).countP p) := by
  rw [firstBelow, List.length_take, List.countP_eq_length_filter]

theorem pairwise_firstBelow : (firstBelow p m k).Pairwise (· < ·) :=
  (pairwise_filter_range p m).sublist (List.take_sublist _ _)

variable {p m k} {n : Nat}

theorem mem_firstBelow (h : n ∈ firstBelow p m k) : n < m ∧ p n = true := by
  obtain ⟨hr, hp⟩ := List.mem_filter.mp (List.mem_of_mem_take h)
  exact ⟨List.mem_range.mp hr, hp⟩

/-- What is left out comes after `k` others. -/
theorem firstBelow_leaves (hn : n < m) (hp : p n = true) (h : n ∉ firstBelow p m k) :
    (firstBelow p m k).length = k ∧ ∀ q ∈ firstBelow p m k, q < n := by
  have hmem : n ∈ (List.range m).filter p := List.mem_filter.mpr ⟨List.mem_range.mpr hn, hp⟩
  have hsort := pairwise_filter_range p m
  rw [← List.take_append_drop k ((List.range m).filter p)] at hmem hsort
  have hdrop : n ∈ ((List.range m).filter p).drop k := (List.mem_append.mp hmem).resolve_left h
  have hlen := List.length_pos_of_mem hdrop
  rw [List.length_drop] at hlen
  obtain ⟨-, -, hlt⟩ := List.pairwise_append.mp hsort
  refine ⟨?_, fun q hq => hlt q hq n hdrop⟩
  rw [firstBelow, List.length_take]
  omega

end

/-- R58: byte `k` of sprite entry `n` stands at OAM offset `4 n + k`. -/
theorem spriteByte_eq {n k : Nat} (hn : n < 40) (hk : k < 4) : spriteByte s n k = s.oam (4 * n + k) :=
  readByte_oamEntry s (by omega)

theorem spriteOnLine_eq {n : Nat} (hn : n < 40) :
    s.spriteOnLine n = decide ((spriteByte s n 0).toNat ≤ s.ppu.ly.toNat + 16 ∧
      s.ppu.ly.toNat + 16 < (spriteByte s n 0).toNat + s.ppu.spriteHeight) := by
  rw [spriteByte_eq s hn (by decide), State.spriteOnLine, Bool.decide_and]
  rfl

/-- R251: the selection, with the sprites read on the bus. -/
theorem oamSelect_eq :
    s.oamSelect = firstBelow (fun n => decide ((spriteByte s n 0).toNat ≤ s.ppu.ly.toNat + 16 ∧
      s.ppu.ly.toNat + 16 < (spriteByte s n 0).toNat + s.ppu.spriteHeight)) 40 10 :=
  congrArg (List.take 10) (List.filter_congr fun _ hn => spriteOnLine_eq s (List.mem_range.mp hn))

/-! ### The entry to mode 3 (R251, R252) -/

/-- R246, R247: no tick selects sprites or draws but the one from dot 79 of a visible line. -/
theorem tick_sel_fb :
    (tick s).ppu.sel = (if s.ppu.lcdc.getLsbD 7 = true ∧ s.ppu.ly.toNat < 144 ∧ s.ppu.dot = 79
      then s.oamSelect else s.ppu.sel) ∧
    (tick s).ppu.fb = (if s.ppu.lcdc.getLsbD 7 = true ∧ s.ppu.ly.toNat < 144 ∧ s.ppu.dot = 79
      then (transferStart s.nextDot).ppu.fb else s.ppu.fb) := by
  cases hon : s.ppu.lcdc.getLsbD 7 with
  | false => simp [tick_off s hon]
  | true =>
    obtain ⟨hd, ht⟩ | ⟨hy, hd, ht⟩ | ⟨-, hd, ht⟩ | ⟨-, hn, -, ht⟩ := tick_cases s hon <;> rw [ht]
    · obtain ⟨-, -, -, hs, hf, -⟩ := lineEnd_ppu s.nextDot
      rw [hs, hf, if_neg (by omega), if_neg (by omega)]
      exact ⟨rfl, rfl⟩
    · rw [if_pos ⟨rfl, hy, hd⟩, if_pos ⟨rfl, hy, hd⟩]
      exact ⟨rfl, rfl⟩
    · rw [hBlankStart_ppu, if_neg (by omega), if_neg (by omega)]
      exact ⟨rfl, rfl⟩
    · rw [if_neg fun h => hn h.2, if_neg fun h => hn h.2]
      exact ⟨rfl, rfl⟩

/-- R252: the state at the entry to mode 3, from which the line is drawn. -/
def State.drawnAt (s : State) (dot : Nat) : State :=
  { s with ppu := { s.ppu with dot := dot, mode := .transfer, sel := s.oamSelect } }

/-- R252: the rows of the frame buffer after a line is drawn. -/
theorem readCells_transferStart (h : frameWf s.ppu.fb = true) (k : Nat) :
    readCells blankRow (transferStart s).ppu.fb k =
      if k = s.ppu.ly.toNat then (s.drawnAt s.ppu.dot).lineRow else readCells blankRow s.ppu.fb k := by
  simp only [frameWf, Bool.and_eq_true] at h
  obtain ⟨hwf, -⟩ := h
  rw [transferStart_ppu]
  split
  · next hk => exact hk ▸ readCells_writeCells_same blankRow hwf _ _
  · next hk => exact readCells_writeCells_other blankRow _ hk _

theorem getD_lineRow {x : Nat} (hx : x < 160) : s.lineRow.getD x 0 = s.pixel x := by
  simp [State.lineRow, List.getD_eq_getElem?_getD, hx]

/-! ### Tiles on the bus (R253 to R255) -/

/-- R54: video RAM stands on the bus from 0x8000. -/
theorem readByte_vram {a : Word} {i : Nat} (ha : a.toNat = 0x8000 + i) (hi : i < 0x2000) :
    s.readByte a = s.vram i := by
  have hr : regionOf a = .videoRam :=
    regionOf_of_bounds (by simp only [regionLow]; omega) (by simp only [regionHigh]; omega)
  simp only [State.readByte, hr, ha]
  rfl

theorem toNat_colourIndex (hi lo : Bool) : (colourIndex hi lo).toNat = 2 * hi.toNat + lo.toNat := by
  cases hi <;> cases lo <;> rfl

/-- R254, R256: a pixel from the two bitplane bytes on the bus. -/
theorem toNat_planePixel {a : Word} {i : Nat} (ha : a.toNat = 0x8000 + i) (hi : i + 1 < 0x2000) (col : Nat) :
    (s.planePixel i col).toNat = busPixel s a col := by
  have ha1 : (a + 1).toNat = 0x8000 + (i + 1) := by
    have h1 : (1 : Word).toNat = 1 := rfl
    rw [BitVec.toNat_add, ha, h1]
    omega
  rw [State.planePixel, toNat_colourIndex, busPixel, readByte_vram s ha (by omega), readByte_vram s ha1 hi]

/-- R254: the signed tile data, whose tile 0 stands at 0x9000. -/
theorem toNat_signedTile (t : Byte) :
    (0x9000#16 + 16#16 * t.signExtend 16).toNat = 0x8000 + (0x1000 + 16 * t.toInt).toNat := by
  have ht := t.isLt
  have hm : t.msb = decide (128 ≤ t.toNat) := BitVec.msb_eq_decide t
  rw [BitVec.toNat_add, BitVec.toNat_mul, BitVec.toNat_signExtend, BitVec.toInt_eq_msb_cond, BitVec.toNat_setWidth,
    BitVec.toNat_ofNat, BitVec.toNat_ofNat]
  simp only [hm, decide_eq_true_eq]
  split <;> omega

/-- R254: the bus address of a tile row, as an offset in video RAM. -/
theorem toNat_tileAddress (t : Byte) {row : Nat} (hrow : row < 8) :
    (tileAddress s t row).toNat = 0x8000 + (s.ppu.tileBase t + 2 * row) ∧ s.ppu.tileBase t + 2 * row + 1 < 0x2000 := by
  have ht := t.isLt
  have hi := t.toInt_lt
  unfold tileAddress Ppu.tileBase
  split
  · rw [BitVec.toNat_add, BitVec.toNat_add, BitVec.toNat_mul, BitVec.toNat_setWidth, BitVec.toNat_ofNat,
      BitVec.toNat_ofNat, BitVec.toNat_ofNat]
    omega
  · rw [BitVec.toNat_add, toNat_signedTile, BitVec.toNat_ofNat]
    omega

theorem toNat_tilePixel (t : Byte) {row : Nat} (hrow : row < 8) (col : Nat) :
    (s.tilePixel t row col).toNat = busPixel s (tileAddress s t row) col := by
  obtain ⟨ha, hi⟩ := toNat_tileAddress s t hrow
  exact toNat_planePixel s ha hi col

/-- R253, R255: a tile index from the map on the bus. -/
theorem mapTile_eq (bit : Bool) {x y : Nat} (hx : x < 256) (hy : y < 256) :
    s.mapTile (mapBase bit) x y =
      s.readByte (BitVec.ofNat 16 ((if bit = true then 0x9C00 else 0x9800) + y / 8 * 32 + x / 8)) := by
  have hm : (if bit = true then 0x9C00 else 0x9800) = 0x8000 + mapBase bit := by cases bit <;> rfl
  have hb : mapBase bit ≤ 0x1C00 := by cases bit <;> decide
  refine (readByte_vram s ?_ (by omega)).symm
  rw [hm, BitVec.toNat_ofNat]
  omega

/-- R255: the window rectangle. -/
theorem inWindow_iff (p : Ppu) (x : Nat) :
    p.inWindow x = true ↔ p.lcdc.getLsbD 5 = true ∧ p.wy.toNat ≤ p.ly.toNat ∧ p.wx.toNat ≤ x + 7 := by
  simp only [Ppu.inWindow, Bool.and_eq_true, decide_eq_true_eq, and_assoc]

/-! ### Sprites (R256, R257) -/

/-- R257: a palette holds two bits for each colour index. -/
theorem toNat_shade (pal : Byte) (ci : BitVec 2) : (shade pal ci).toNat = shadeOf pal ci.toNat := by
  rw [shade, BitVec.extractLsb'_toNat, Nat.shiftRight_eq_div_pow, shadeOf, Nat.pow_mul]

/-- R256: sprite `n` has an opaque pixel in column `x`. -/
def State.spriteOpaque (s : State) (x n : Nat) : Bool := s.spriteOnColumn n x && decide (s.spriteIndex n x ≠ 0)

/-- R256: each opaque sprite overwrites, so the last one wins. -/
theorem spritePixel_eq (x : Nat) (ns : List Nat) (px : BitVec 2 × Byte) :
    s.spritePixel x ns px =
      match ns.reverse.find? (s.spriteOpaque x) with
      | some n => (s.spriteIndex n x, s.spritePalette n)
      | none => px := by
  induction ns generalizing px with
  | nil => rfl
  | cons n r ih =>
    rw [State.spritePixel, ← State.spriteOpaque, List.reverse_cons, List.find?_append, ih, ih]
    cases r.reverse.find? (s.spriteOpaque x) with
    | some q => simp
    | none => cases h : s.spriteOpaque x n <;> simp [h]

theorem spriteHeight_le (p : Ppu) : p.spriteHeight ≤ 16 := by
  unfold Ppu.spriteHeight
  split <;> omega

/-- R256: sprite tiles are unsigned from 0x8000; no row of a sprite, on the line or not, leaves video RAM. -/
theorem toNat_spriteTile (t : Byte) {row : Nat} (hrow : row < 272) (col : Nat) :
    (s.planePixel (16 * t.toNat + 2 * row) col).toNat =
      busPixel s (0x8000#16 + BitVec.ofNat 16 (16 * t.toNat + 2 * row)) col := by
  have ht := t.isLt
  refine toNat_planePixel s ?_ (by omega) col
  rw [BitVec.toNat_add, BitVec.toNat_ofNat, BitVec.toNat_ofNat]
  omega

/-- R256: the colour index of sprite `n` in column `x`, from the bus. -/
def busSprite (s : State) (x n : Nat) : Nat :=
  let h := if s.ppu.lcdc.getLsbD 2 = true then 16 else 8
  let col := x + 8 - (spriteByte s n 1).toNat
  let row := s.ppu.ly.toNat + 16 - (spriteByte s n 0).toNat
  let col := if (spriteByte s n 3).getLsbD 5 = true then 7 - col else col
  let row := if (spriteByte s n 3).getLsbD 6 = true then h - 1 - row else row
  let t := if h = 16 then spriteByte s n 2 &&& 0xFE#8 else spriteByte s n 2
  busPixel s (0x8000#16 + BitVec.ofNat 16 (16 * t.toNat + 2 * row)) col

variable {n : Nat} (hn : n < 40)
include hn

theorem toNat_spriteIndex (x : Nat) : (s.spriteIndex n x).toNat = busSprite s x n := by
  have hly := s.ppu.ly.isLt
  have hh := spriteHeight_le s.ppu
  unfold State.spriteIndex busSprite
  dsimp only
  rw [toNat_spriteTile s _ (by split <;> omega)]
  simp only [spriteByte_eq s hn, Nat.reduceLT, Nat.add_zero]
  rfl

theorem spriteOpaque_eq (x : Nat) :
    s.spriteOpaque x n = (decide ((spriteByte s n 1).toNat ≤ x + 8 ∧ x + 8 < (spriteByte s n 1).toNat + 8) &&
      decide (busSprite s x n ≠ 0)) := by
  have h0 : s.spriteIndex n x ≠ 0 ↔ busSprite s x n ≠ 0 := by
    rw [← toNat_spriteIndex s hn, ne_eq, BitVec.toNat_eq]
    rfl
  rw [spriteByte_eq s hn (by decide)]
  simp only [State.spriteOpaque, State.spriteOnColumn, Bool.decide_and, h0, Nat.add_lt_add_iff_right]

theorem spritePalette_eq :
    s.spritePalette n = if (spriteByte s n 3).getLsbD 4 = true then s.ppu.obp1 else s.ppu.obp0 := by
  rw [spriteByte_eq s hn (by decide), State.spritePalette]

end

/-! ### The obligations -/

/-- Settles O32: the step performs (`step_of_performs`), and its fetch takes the byte at PC twice
(`fetchInstr_haltBug`). -/
theorem haltBugFetch : Obligations.HaltBugFetch := by
  intro s i rest hp hb w hd u
  have hpc := fetchState_pc s
  have hf := fetchInstr_haltBug (fetchState s) ((fetchState_hbPending s).trans hb) (hpc ▸ hd)
  rw [step_of_performs s hp, hf, hpc]
  rfl

/-- Settles O34: the idle step is the PPU's advance alone (`step_of_idle`), and a CPU step with a source pending does not
look at the halted state (`cpuStep_wake`). -/
theorem haltedState : Obligations.HaltedState := by
  intro s hh
  refine ⟨fun hf hr hno => ⟨_, step_of_idle hf hr hh (pending_eq_zero _ hno), rfl, ?_⟩, fun hp => ?_⟩
  · obtain ⟨-, -, -, -, -, -, -, hm, -, -, -, -, -, -, -, -, -, hi⟩ := beginStep_keeps s
    have hie : (beginStep s).irq.ie = s.irq.ie := by rw [hi]
    rw [ppuWrote_advance ((beginStep s).cost 4) 4]
    exact ⟨sameCpu_beginStep s, hm, hie⟩
  · change systemStep s = systemStep (wake s)
    rw [systemStep, systemStep, beginStep_wake, cpuStep_wake _ hp]

/-- Settles O35: the source is the lowest one pending (`pendingInterrupt_eq`), and `service_wake` is a push, of which
`push16_completes` and `push16_refused` say the rest. -/
theorem serviceEntry : Obligations.ServiceEntry := by
  intro s i hf hr hm hi h
  obtain ⟨-, -, hpc, -, -, -, -, -, -, -, -, -, -, -, -, -, -, hirq⟩ := beginStep_keeps s
  have hsrc := pendingInterrupt_eq (beginStep s) hi h
  have hpend : (beginStep s).pending ≠ 0 :=
    (pending_ne_zero_iff _).mpr ⟨⟨i, hi⟩, by simpa only [decide_true, Bool.and_eq_true] using h i le_rfl⟩
  have hmay : mayPush (beginStep s) = mayPush s := mayPush_wake_beginStep
  have hb : (beginStep s).irq.hbPending = s.irq.hbPending := by rw [hirq]
  rw [step_of_service hf hr hm hpend, service_wake _ hsrc, hb, hpc, vectorOf_eq]
  refine ⟨fun hp => ?_, fun hp => ?_⟩
  · obtain ⟨p, hp, hpushed, -⟩ :=
      push16_completes (beginStep s) (if s.irq.hbPending then s.pc - 1 else s.pc) (hmay.trans hp)
    exact ⟨p, hpushed, by rw [hp]; rfl⟩
  · rw [push16_refused _ _ (hmay.trans hp)]
    rfl

/-- Settles O50, by the dot of the frame (`tick_frameDot`). -/
theorem tickPosition : Obligations.TickPosition := by
  intro s hp hon t
  have hl := tick_lcdc s
  obtain ⟨hd, -, hm⟩ := (positionOk_iff (hl ▸ hon)).mp (tick_position s hp)
  exact ⟨tick_frameDot hp hon, hd, hm, hl⟩

/-- Settles O51: the ticks of a frame move by 0 modulo its dots (`advance_frameDot`), and the dot of the frame determines
the position. -/
theorem framePeriod : Obligations.FramePeriod := by
  intro s hp hon
  obtain ⟨ap, al, ad⟩ := advance_frameDot 70224 hp hon
  refine position_unique hp ap hon al (ad.trans ?_)
  rw [Nat.add_mod_right, Nat.mod_eq_of_lt (frameDot_lt hp hon)]

/-- Settles O52: `tick_ifr` at bits 0 and 1, and what a tick keeps. -/
theorem tickRequests : Obligations.TickRequests := by
  intro s _ hon t newLine vblank
  refine ⟨congrArg State.irq (ppuWrote_tick s), ?_, ?_, fun j hj => tick_other_requests s hj, ?_, fun h => ?_⟩
  · rw [tick_ifr s hon (by decide)]
    simp [t, newLine, vblank]
  · rw [tick_ifr s hon (by decide)]
    simp [t, newLine, vblank, Bool.or_assoc]
  · rw [tick_out_frame s hon]
    simp [t, newLine, vblank]
  · exact tick_newLine_lycEq s hon (of_decide_eq_true h)

/-- Settles O54: the selection is the first ten of a filtered list (`oamSelect_eq`). -/
theorem oamScan : Obligations.OamScan := by
  intro s h covers
  obtain ⟨hsel, -⟩ := tick_sel_fb s
  have hfirst : s.oamSelect = firstBelow covers 40 10 := oamSelect_eq s
  rw [hfirst] at hsel ⊢
  exact ⟨length_firstBelow .., pairwise_firstBelow .., fun _ => mem_firstBelow, fun _ => firstBelow_leaves, hsel⟩

/-- Settles O55: one tick draws (`tick_sel_fb`), and it writes one row of the frame buffer
(`readCells_transferStart`). -/
theorem lineDrawn : Obligations.LineDrawn := by
  intro s draws
  obtain ⟨-, hfb⟩ := tick_sel_fb s
  refine ⟨?_, fun hd => hfb.trans (if_neg hd)⟩
  intro hd hw u
  have h80 : s.nextDot.ppu.dot = 80 := by
    obtain ⟨-, -, h79⟩ := hd
    exact congrArg (· + 1) h79
  have hrow (k : Nat) : readCells blankRow (tick s).ppu.fb k =
      if k = s.ppu.ly.toNat then u.lineRow else readCells blankRow s.ppu.fb k := by
    have h := readCells_transferStart s.nextDot hw k
    rw [h80] at h
    rw [hfb, if_pos hd]
    exact h
  rw [hrow, if_pos rfl]
  exact ⟨lineRow_length u, fun x hx => getD_lineRow u hx, fun k hk => (hrow k).trans (if_neg hk)⟩

/-- Settles O56: outside and inside the window, the tile index (`mapTile_eq`) and the tile's pixel (`toNat_tilePixel`)
from the bus. -/
theorem backgroundAndWindow : Obligations.BackgroundAndWindow := by
  intro s x hy hx
  refine ⟨fun h => ?_, fun h => ?_⟩ <;> rw [← inWindow_iff] at h
  · rw [State.bgwinIndex, if_neg h, State.bgIndex]
    dsimp only
    rw [toNat_tilePixel _ _ (by omega), mapTile_eq _ _ (by omega) (by omega)]
  · rw [State.bgwinIndex, if_pos h, State.windowIndex]
    dsimp only
    rw [toNat_tilePixel _ _ (by omega), mapTile_eq _ _ (by omega) (by omega)]

/-- Settles O57: drawing in order is a search from the end (`spritePixel_eq`), for a sprite that is opaque on the bus
(`spriteOpaque_eq`). -/
theorem spritePriority : Obligations.SpritePriority := by
  intro s x hsel h colour opaqueAt
  have hfind : s.ppu.sel.reverse.find? (s.spriteOpaque x) = s.ppu.sel.reverse.find? opaqueAt :=
    List.find?_congr fun n hn => spriteOpaque_eq s (hsel n (List.mem_reverse.mp hn)) x
  unfold State.pixel
  dsimp only
  rw [toNat_shade]
  split
  · rw [spritePixel_eq, hfind]
    cases hf : s.ppu.sel.reverse.find? opaqueAt with
    | none => rfl
    | some n =>
      have hn := hsel n (List.mem_reverse.mp (List.mem_of_find?_eq_some hf))
      dsimp only
      rw [spritePalette_eq s hn, toNat_spriteIndex s hn]
      rfl
  · rfl

/-- Settles O36: the set is raised bit by bit (`beginStep_cons`, `getLsbD_raiseIf`). -/
theorem environmentRequests : Obligations.EnvironmentRequests := by
  intro s e r h
  rw [beginStep_cons s h]
  constructor
  · obtain ⟨x, y, z⟩ := e
    cases x <;> cases y <;> cases z <;> rfl
  · intro j hj
    change (State.irq (State.raiseIf _ _ _)).ifr.getLsbD j = _
    rw [getLsbD_raiseIf _ _ _ hj, getLsbD_raiseIf _ _ _ hj, getLsbD_raiseIf _ _ _ hj]
    simp only [Bool.and_comm]

/-- Settles O45: the two branches of a write to LCDC, and `advance_off`. -/
theorem displayWrites : Obligations.DisplayWrites := by
  intro s v
  refine ⟨⟨{ s with ppu := s.ppu.writeLcdc v }, rfl, fun h => ?_, fun h => ?_, fun h n => ?_⟩, _, rfl, rfl⟩
  · rw [Ppu.writeLcdc, if_pos h]
  · rw [Ppu.writeLcdc, if_neg h]
  · obtain ⟨hl, -⟩ := writeLcdc_keeps s.ppu v
    exact advance_off _ n ((congrArg (BitVec.getLsbD · 7) hl).trans h)

end Sys2Proof.Machine

/-! PROOFS of O1 and O29 (30_encoding, 70_reset). What the decoder's tables and the encoder say of each other stands
above (`decodeBytes_encode`, `encode_decodeBytes`); what is left of the round trip is the length that byte 0 fixes
(`length_encode`) and how `decode` cuts a byte string (`decode_append`). -/

namespace Sys2Proof.Machine

/-! ### The bytes of one instruction (R81) -/

/-- R81: byte 0 of an encoding fixes its length. -/
theorem length_encode {i : Instr} {o : Byte} {r : List Byte} (h : i.wellFormed = true) (he : encode i = o :: r) :
    (o :: r).length = instrLength o := by
  rw [← he, ← decodeBytes_encode h he, encode_decodeBytes, length_operandBytes]

/-- Exactly the bytes that byte 0 asks for are read, and the rest is given back. -/
theorem decode_append {o : Byte} {r : List Byte} (hl : (o :: r).length = instrLength o) (tail : List Byte) :
    decode (o :: r ++ tail) = .ok (decodeBytes o (r.getD 0 0) (r.getD 1 0), tail) := by
  unfold decode
  match r with
  | [] => simp [← hl]
  | [b1] => simp [← hl]
  | [b1, b2] => simp [← hl]
  | _ :: _ :: _ :: _ =>
    have hc := instrLength_cases o
    simp only [← hl, List.length_cons] at hc
    omega

/-! ### The obligations -/

/-- Settles O1: the bytes read are those of the instruction (`length_encode`, `decode_append`), and they select it
(`decodeBytes_encode`). -/
theorem decodeEncode : Obligations.DecodeEncode := by
  intro i tail h
  obtain ⟨o, r, he⟩ := List.exists_cons_of_ne_nil (encode_ne_nil i)
  rw [he, decode_append (length_encode h he), decodeBytes_encode h he]

/-- Settles O29: an instruction that completes is neither STOP nor an illegal byte (`executes_of_next`), and of every
other one `execSpec` gives the count. -/
theorem cycleCounts : Obligations.CycleCounts := by
  intro i s t h
  obtain ⟨hill, hstop⟩ := executes_of_next s h
  obtain ⟨-, -, -, hcount, -⟩ := (execSpec s hill hstop).next t h
  exact hcount

end Sys2Proof.Machine
